-- ==== Sys2Proof/Word.lean ====
section
/-! DEFINITION. Word.lean: the byte, the fixed-size table and the numbering types of the part (00_scope section 4). -/

namespace Sys2Proof

/-- One byte of a frame, a record or the frame memory. -/
abbrev Byte := BitVec 8

/-- A fixed number of like things, indexed from 0. -/
abbrev Table (n : Nat) (α : Type) := Vector α n

/-- Entry `i` of a table. -/
def Table.get {n : Nat} {α : Type} (t : Table n α) (i : Fin n) : α := t[i.val]'i.isLt

/-- The table with entry `i` replaced. -/
def Table.put {n : Nat} {α : Type} (t : Table n α) (i : Fin n) (x : α) : Table n α :=
  t.set i.val x i.isLt

/-- The table with entry `i` changed by `f`. -/
def Table.upd {n : Nat} {α : Type} (t : Table n α) (i : Fin n) (f : α → α) : Table n α :=
  t.put i (f (t.get i))

/-- The table whose entry `i` is `f i`. -/
def Table.ofFun {n : Nat} {α : Type} (f : Fin n → α) : Table n α := Vector.ofFn f

/-- The table holding `x` everywhere. -/
def Table.all (n : Nat) {α : Type} (x : α) : Table n α := Vector.replicate n x

/-- Ink planes 0 to 5. -/
abbrev Plane := Fin 6
/-- Head ports H0 to H11. -/
abbrev Port := Fin 12
/-- Rows 0 to 3 of a head. -/
abbrev RowIx := Fin 4
/-- Data channels: index `i` is channel `i + 1` of the link. -/
abbrev DataCh := Fin 3
/-- Template numbers 0 to 15. -/
abbrev TemplateIx := Fin 16
/-- Seam table entries 0 to 15. -/
abbrev SeamIx := Fin 16
/-- Product-detect inputs PD0 to PD3. -/
abbrev PdIx := Fin 4

/-- All planes in plane order. -/
def allPlanes : List Plane := [0, 1, 2, 3, 4, 5]
/-- All ports in port order. -/
def allPorts : List Port := [0, 1, 2, 3, 4, 5, 6, 7, 8, 9, 10, 11]
/-- All rows in row order. -/
def allRows : List RowIx := [0, 1, 2, 3]
/-- All data channels in channel order. -/
def allDataCh : List DataCh := [0, 1, 2]
/-- All templates in number order. -/
def allTemplates : List TemplateIx := [0, 1, 2, 3, 4, 5, 6, 7, 8, 9, 10, 11, 12, 13, 14, 15]
/-- All seam table entries in number order. -/
def allSeams : List SeamIx := [0, 1, 2, 3, 4, 5, 6, 7, 8, 9, 10, 11, 12, 13, 14, 15]
/-- All product-detect inputs in order. -/
def allPds : List PdIx := [0, 1, 2, 3]

end Sys2Proof
end

