-- ==== Sys2Proof/Config.lean ====
section
/-! DEFINITION. Config.lean: the capacities and durations the specification fixes for this part (00_scope section 6, R181). -/

namespace Sys2Proof.Config

/-- Pixels of a stored line, and the greatest plane width (R1). -/
def maxWidth : Nat := 16384
/-- Blocks of the frame memory (R76). -/
def blocks : Nat := 262144
/-- Bytes of a block (R76). -/
def blockBytes : Nat := 4096
/-- Words of a block (R76). -/
def blockWords : Nat := 512
/-- Nozzle positions of one row (R4). -/
def rowNozzles : Nat := 768
/-- Page Queue entries (R92). -/
def pageEntries : Nat := 32
/-- Placements of the placement list (R61). -/
def placements : Nat := 64
/-- Copies of the copy window beyond the compose copy (R101). -/
def windowAhead : Nat := 15
/-- Capacity of the control request queue (R171). -/
def requestEntries : Nat := 8
/-- Capacity of the reply queue (R171). -/
def replyEntries : Nat := 8
/-- Capacity of the notice queue (R172). -/
def noticeEntries : Nat := 32
/-- Greatest payload of a frame (R162). -/
def maxPayload : Nat := 4112
/-- Greatest valid line period in ticks (R54). -/
def maxLinePeriod : Nat := 16777215
/-- Consecutive asserted samples that take a port OFFLINE (R127). -/
def faultTicks : Nat := 100
/-- Ticks of a product-detect filter microsecond (R60). -/
def ticksPerMicrosecond : Nat := 100
/-- Ticks of one keep-wet interval unit (R142). -/
def keepWetUnit : Nat := 500000
/-- Ticks of a training attempt (R160: 2 ms of the 100 MHz timebase). -/
def trainingTicks : Nat := 200000
/-- Ticks of a load beyond half its nozzles (R133). -/
def loadOverhead : Nat := 24
/-- Greatest copy sequence (R93). -/
def maxSequence : Nat := 4294967295
/-- Greatest serial (R93). -/
def maxSerial : Nat := 281474976710655

end Sys2Proof.Config
end

