-- ==== Sys2Proof/Syntax.lean ====
section
/-! DEFINITION. Syntax.lean: the commands of the part, one constructor of `Instr` per row of spec/opcode_table.json.
A request row carries the request frame's tag and the fields of its payload (section 11.3), each as wide as the
payload carries it, so that a field out of range can be written and is answered RANGE (R180). An event row names
only what the event needs beyond the state: its port, row, plane, input or channel, or the bytes that arrive. -/

namespace Sys2Proof

/-- The 24 requests of section 11.3 with their fields as the payload carries them. -/
inductive Request where
  | identify
  | statusReport (option : Byte)
  | setPlane (plane : Byte) (width : BitVec 16) (add1 add2 add3 weakCap : Byte)
  | setHead (port plane : Byte) (first : BitVec 16) (rows : Byte) (nozzles : BitVec 16)
      (d0 d1 d2 d3 : BitVec 16) (f0 f1 f2 f3 : Byte) (window : BitVec 16) (policy : Byte)
  | setSeam (entry left right shift : Byte) (pattern : BitVec 64)
  | setNozzles (port row : Byte) (first count : BitVec 16) (statuses : List Byte)
  | readNozzles (port row : Byte) (first count : BitVec 16)
  | restoreHead (port : Byte)
  | setMotion (sense filter : Byte) (reverseLimit : BitVec 16) (n m : BitVec 24)
  | setRatio (n m : BitVec 24)
  | setTrigger (input edge filter : Byte) (lockout : BitVec 16)
  | setKeepWet (port interval mode : Byte)
  | setMemoryPlan (slots d0 d1 d2 d3 d4 d5 : BitVec 16)
  | defineTemplate (template : Byte) (length : BitVec 16)
  | dropTemplate (template : Byte)
  | queuePage (template : Byte) (copies length gap top : BitVec 16) (source patched : Byte)
  | mark (copy : BitVec 32) (value : BitVec 16)
  | openChannel (channel planes : Byte) (quota : BitVec 16)
  | closeChannel (channel : Byte)
  | setNotices (mask : Byte)
  | startJob
  | stopJob
  | abort
  | restart
  deriving DecidableEq, Repr

/-- The commands of spec/opcode_table.json, in the table's order. -/
inductive Instr where
  | identify (tag : Byte)
  | statusReport (tag option : Byte)
  | setPlane (tag plane : Byte) (width : BitVec 16) (add1 add2 add3 weakCap : Byte)
  | setHead (tag port plane : Byte) (first : BitVec 16) (rows : Byte) (nozzles : BitVec 16)
      (d0 d1 d2 d3 : BitVec 16) (f0 f1 f2 f3 : Byte) (window : BitVec 16) (policy : Byte)
  | setSeam (tag entry left right shift : Byte) (pattern : BitVec 64)
  | setNozzles (tag port row : Byte) (first count : BitVec 16) (statuses : List Byte)
  | readNozzles (tag port row : Byte) (first count : BitVec 16)
  | restoreHead (tag port : Byte)
  | setMotion (tag sense filter : Byte) (reverseLimit : BitVec 16) (n m : BitVec 24)
  | setRatio (tag : Byte) (n m : BitVec 24)
  | setTrigger (tag input edge filter : Byte) (lockout : BitVec 16)
  | setKeepWet (tag port interval mode : Byte)
  | setMemoryPlan (tag : Byte) (slots d0 d1 d2 d3 d4 d5 : BitVec 16)
  | defineTemplate (tag template : Byte) (length : BitVec 16)
  | dropTemplate (tag template : Byte)
  | queuePage (tag template : Byte) (copies length gap top : BitVec 16) (source patched : Byte)
  | mark (tag : Byte) (copy : BitVec 32) (value : BitVec 16)
  | openChannel (tag channel planes : Byte) (quota : BitVec 16)
  | closeChannel (tag channel : Byte)
  | setNotices (tag mask : Byte)
  | startJob (tag : Byte)
  | stopJob (tag : Byte)
  | abort (tag : Byte)
  | restart (tag : Byte)
  | stopCompletion
  | mapSwitchComplete (plane : Plane)
  | encoderFilterAccept
  | pdFilterAccept (input : PdIx)
  | continuousPlacement
  | headFault (port : Port)
  | loadGrant (port : Port)
  | loadComplete (port : Port)
  | fire (port : Port) (row : RowIx)
  | fireWindowEnd (port : Port) (row : RowIx)
  | keepWetExpiry (port : Port)
  | keepWetPulse (port : Port)
  | composeBegin
  | compositionComplete
  | frameHeaderReceived (sync channel kind tag : Byte) (length : BitVec 16) (check : Byte)
  | frameReceived (payload : List Byte) (check : BitVec 32)
  | requestTaken
  | patchFrame (channel : DataCh)
  | templateLineFrame (channel : DataCh)
  | templateLineWriteComplete
  | channelDrained (channel : DataCh)
  | creditFrameSent
  | frameSent
  | linkUp
  | trainingTimeout
  | wordLockLoss
  | resetAssert
  | resetRelease
  | powerOn
  | patchWriteComplete
  deriving DecidableEq, Repr

end Sys2Proof
end

