-- ==== Sys2Proof/WellFormed.lean ====
section
/-! DEFINITION. WellFormed.lean: which commands can exist on the link. Two operands are lists, and each has a
greatest length; every other operand is bounded by its type. -/

namespace Sys2Proof

/-- A status list of Set Nozzles is as long as a payload of 7 to 775 bytes carries (R180). -/
def statusesFit (statuses : List Byte) : Bool := decide (statuses.length ≤ Config.rowNozzles)

/-- A frame's payload is 0 to 4,112 bytes (R162, section 11.1). -/
def payloadFits (payload : List Byte) : Bool := decide (payload.length ≤ Config.maxPayload)

/-- The operands a request payload can carry. -/
def Request.wellFormed : Request → Bool
  | .setNozzles _ _ _ _ statuses => statusesFit statuses
  | _ => true

/-- The operands a command can carry. -/
def Instr.wellFormed : Instr → Bool
  | .setNozzles _ _ _ _ _ statuses => statusesFit statuses
  | .frameReceived payload _ => payloadFits payload
  | _ => true

end Sys2Proof
end

