-- ==== Sys2Proof/Decode.lean ====
section
/-! DEFINITION. Decode.lean: from words and request payloads to commands. spec/opcode_table.json gives no row any
bits, so `decodeTableWord` reads no command from any word. The one encoding the specification gives a command is the
request payload of section 11.3: `decodeRequest` reads it, rejecting by the names of R171, and `encodeRequest`
writes it. -/

namespace Sys2Proof

/-- The command that the table's bits spell: no row of the table carries bits, so no word spells one. -/
def decodeTableWord (_nbits _w : Nat) : Option Instr := none

/-- The number a run of bytes holds, least significant byte first (R177). -/
def leNat : List Byte → Nat
  | [] => 0
  | b :: bs => b.toNat + 256 * leNat bs

/-- `n` in `k` bytes, least significant byte first (R177). -/
def leBytes : Nat → Nat → List Byte
  | 0, _ => []
  | k + 1, n => BitVec.ofNat 8 n :: leBytes k (n / 256)

/-- The `k`-byte field at offset `off` of a payload. -/
def field (payload : List Byte) (off k : Nat) : Nat := leNat ((payload.drop off).take k)

/-- The byte at offset `off` of a payload. -/
def byteAt (payload : List Byte) (off : Nat) : Byte := payload.getD off 0

/-- What the Request Handler reads from a payload: a request, or the test of R171 that turns it away. -/
inductive RequestRead where
  | empty
  | unknown (code : Byte)
  | length (code : Byte)
  | request (r : Request)
  deriving DecidableEq, Repr

/-- The request code of a request (section 11.3). -/
def Request.code : Request → Byte
  | .identify => 0x01
  | .statusReport _ => 0x02
  | .setPlane .. => 0x03
  | .setHead .. => 0x04
  | .setSeam .. => 0x05
  | .setNozzles .. => 0x06
  | .readNozzles .. => 0x07
  | .restoreHead _ => 0x08
  | .setMotion .. => 0x09
  | .setRatio .. => 0x0A
  | .setTrigger .. => 0x0B
  | .setKeepWet .. => 0x0C
  | .setMemoryPlan .. => 0x0D
  | .defineTemplate .. => 0x0E
  | .dropTemplate _ => 0x0F
  | .queuePage .. => 0x10
  | .mark .. => 0x11
  | .openChannel .. => 0x12
  | .closeChannel _ => 0x13
  | .setNotices _ => 0x14
  | .startJob => 0x15
  | .stopJob => 0x16
  | .abort => 0x17
  | .restart => 0x18

/-- Whether a payload length is the one the code requires (R180; Set Nozzles takes 7 to 775 bytes). `none` for a code
that names no request. -/
def lengthAllowed (code : Byte) (len : Nat) : Option Bool :=
  match code.toNat with
  | 1 => some (len == 1)
  | 2 => some (len == 2)
  | 3 => some (len == 8)
  | 4 => some (len == 23)
  | 5 => some (len == 13)
  | 6 => some (decide (7 ≤ len ∧ len ≤ 775))
  | 7 => some (len == 7)
  | 8 => some (len == 2)
  | 9 => some (len == 11)
  | 10 => some (len == 7)
  | 11 => some (len == 6)
  | 12 => some (len == 4)
  | 13 => some (len == 15)
  | 14 => some (len == 4)
  | 15 => some (len == 2)
  | 16 => some (len == 12)
  | 17 => some (len == 7)
  | 18 => some (len == 5)
  | 19 => some (len == 2)
  | 20 => some (len == 2)
  | 21 => some (len == 1)
  | 22 => some (len == 1)
  | 23 => some (len == 1)
  | 24 => some (len == 1)
  | _ => none

/-- The request a payload of the right length carries, field by field at the offsets of section 11.3. -/
def requestOf (p : List Byte) : Option Request :=
  match (byteAt p 0).toNat with
  | 1 => some .identify
  | 2 => some (.statusReport (byteAt p 1))
  | 3 => some (.setPlane (byteAt p 1) (.ofNat 16 (field p 2 2)) (byteAt p 4) (byteAt p 5) (byteAt p 6) (byteAt p 7))
  | 4 => some (.setHead (byteAt p 1) (byteAt p 2) (.ofNat 16 (field p 3 2)) (byteAt p 5) (.ofNat 16 (field p 6 2))
      (.ofNat 16 (field p 8 2)) (.ofNat 16 (field p 10 2)) (.ofNat 16 (field p 12 2)) (.ofNat 16 (field p 14 2))
      (byteAt p 16) (byteAt p 17) (byteAt p 18) (byteAt p 19) (.ofNat 16 (field p 20 2)) (byteAt p 22))
  | 5 => some (.setSeam (byteAt p 1) (byteAt p 2) (byteAt p 3) (byteAt p 4) (.ofNat 64 (field p 5 8)))
  | 6 => some (.setNozzles (byteAt p 1) (byteAt p 2) (.ofNat 16 (field p 3 2)) (.ofNat 16 (field p 5 2)) (p.drop 7))
  | 7 => some (.readNozzles (byteAt p 1) (byteAt p 2) (.ofNat 16 (field p 3 2)) (.ofNat 16 (field p 5 2)))
  | 8 => some (.restoreHead (byteAt p 1))
  | 9 => some (.setMotion (byteAt p 1) (byteAt p 2) (.ofNat 16 (field p 3 2)) (.ofNat 24 (field p 5 3))
      (.ofNat 24 (field p 8 3)))
  | 10 => some (.setRatio (.ofNat 24 (field p 1 3)) (.ofNat 24 (field p 4 3)))
  | 11 => some (.setTrigger (byteAt p 1) (byteAt p 2) (byteAt p 3) (.ofNat 16 (field p 4 2)))
  | 12 => some (.setKeepWet (byteAt p 1) (byteAt p 2) (byteAt p 3))
  | 13 => some (.setMemoryPlan (.ofNat 16 (field p 1 2)) (.ofNat 16 (field p 3 2)) (.ofNat 16 (field p 5 2))
      (.ofNat 16 (field p 7 2)) (.ofNat 16 (field p 9 2)) (.ofNat 16 (field p 11 2)) (.ofNat 16 (field p 13 2)))
  | 14 => some (.defineTemplate (byteAt p 1) (.ofNat 16 (field p 2 2)))
  | 15 => some (.dropTemplate (byteAt p 1))
  | 16 => some (.queuePage (byteAt p 1) (.ofNat 16 (field p 2 2)) (.ofNat 16 (field p 4 2)) (.ofNat 16 (field p 6 2))
      (.ofNat 16 (field p 8 2)) (byteAt p 10) (byteAt p 11))
  | 17 => some (.mark (.ofNat 32 (field p 1 4)) (.ofNat 16 (field p 5 2)))
  | 18 => some (.openChannel (byteAt p 1) (byteAt p 2) (.ofNat 16 (field p 3 2)))
  | 19 => some (.closeChannel (byteAt p 1))
  | 20 => some (.setNotices (byteAt p 1))
  | 21 => some .startJob
  | 22 => some .stopJob
  | 23 => some .abort
  | 24 => some .restart
  | _ => none

/-- Tests 2 and 3 of R171 on a payload whose check passed, and the request of a payload that passes them. -/
def decodeRequest (p : List Byte) : RequestRead :=
  match p with
  | [] => .empty
  | code :: _ =>
    match lengthAllowed code p.length with
    | none => .unknown code
    | some false => .length code
    | some true =>
      match requestOf p with
      | some r => .request r
      | none => .unknown code

/-- The payload of a request (section 11.3): the code, then the fields in the order listed. -/
def encodeRequest : Request → List Byte
  | .identify => [0x01]
  | .statusReport o => [0x02, o]
  | .setPlane p w a b c k => [0x03, p] ++ leBytes 2 w.toNat ++ [a, b, c, k]
  | .setHead h p c r n d0 d1 d2 d3 f0 f1 f2 f3 w y =>
      [0x04, h, p] ++ leBytes 2 c.toNat ++ [r] ++ leBytes 2 n.toNat ++ leBytes 2 d0.toNat ++ leBytes 2 d1.toNat
        ++ leBytes 2 d2.toNat ++ leBytes 2 d3.toNat ++ [f0, f1, f2, f3] ++ leBytes 2 w.toNat ++ [y]
  | .setSeam e l r s pat => [0x05, e, l, r, s] ++ leBytes 8 pat.toNat
  | .setNozzles h k n c st => [0x06, h, k] ++ leBytes 2 n.toNat ++ leBytes 2 c.toNat ++ st
  | .readNozzles h k n c => [0x07, h, k] ++ leBytes 2 n.toNat ++ leBytes 2 c.toNat
  | .restoreHead h => [0x08, h]
  | .setMotion se f r n m => [0x09, se, f] ++ leBytes 2 r.toNat ++ leBytes 3 n.toNat ++ leBytes 3 m.toNat
  | .setRatio n m => [0x0A] ++ leBytes 3 n.toNat ++ leBytes 3 m.toNat
  | .setTrigger i e f l => [0x0B, i, e, f] ++ leBytes 2 l.toNat
  | .setKeepWet h i m => [0x0C, h, i, m]
  | .setMemoryPlan s d0 d1 d2 d3 d4 d5 =>
      [0x0D] ++ leBytes 2 s.toNat ++ leBytes 2 d0.toNat ++ leBytes 2 d1.toNat ++ leBytes 2 d2.toNat
        ++ leBytes 2 d3.toNat ++ leBytes 2 d4.toNat ++ leBytes 2 d5.toNat
  | .defineTemplate t l => [0x0E, t] ++ leBytes 2 l.toNat
  | .dropTemplate t => [0x0F, t]
  | .queuePage t c l g o s p =>
      [0x10, t] ++ leBytes 2 c.toNat ++ leBytes 2 l.toNat ++ leBytes 2 g.toNat ++ leBytes 2 o.toNat ++ [s, p]
  | .mark c v => [0x11] ++ leBytes 4 c.toNat ++ leBytes 2 v.toNat
  | .openChannel c p q => [0x12, c, p] ++ leBytes 2 q.toNat
  | .closeChannel c => [0x13, c]
  | .setNotices m => [0x14, m]
  | .startJob => [0x15]
  | .stopJob => [0x16]
  | .abort => [0x17]
  | .restart => [0x18]

end Sys2Proof
end

