-- ==== Sys2Proof/Machine/State.lean ====
section
/-! DEFINITION. Machine/State.lean: everything the specification gives the part, as plain data, block by block (00_scope
section 2.1), and the state after reset. Serials are naturals, values that start at −1 or run signed are integers,
values that wrap or saturate are bit vectors of their width (DESIGN CHOICE, notes/assumptions/20.md). -/

namespace Sys2Proof.Machine

/-! ### Job Control (chapter 9) -/

/-- The job state (R147). -/
inductive JobState where
  | idle | running | stopping | halted
  deriving DecidableEq, Repr

/-- The first halt cause (R147). -/
inductive HaltCause where
  | none
  | reverse
  | headFault (port : Port)
  deriving DecidableEq, Repr

/-- The cause a JOB STATE notice carries (R148). -/
inductive JobCause where
  | start | stop | reverse | headFault (port : Port) | stopComplete | abort | restart
  deriving DecidableEq, Repr

/-- What Job Control holds beside the later-halt counter (R147). -/
structure Job where
  state : JobState
  firstHalt : HaltCause
  deriving DecidableEq, Repr

/-! ### Geometry Store (chapter 1) -/

/-- A plane record (R1). -/
structure PlaneRec where
  width : Nat
  add1 : Nat
  add2 : Nat
  add3 : Nat
  weakCap : Nat
  deriving DecidableEq, Repr

/-- What a head fault does to the job (R3). -/
inductive FaultPolicy where
  | goOn | halt
  deriving DecidableEq, Repr

/-- A head record (R3). -/
structure HeadRec where
  plane : Option Plane
  first : Nat
  rows : Nat
  nozzles : Nat
  d : Table 4 Nat
  f : Table 4 Nat
  window : Nat
  policy : FaultPolicy
  deriving DecidableEq, Repr

/-- A seam table entry (R6); `left = none` is an empty entry. Pattern bit `i` is choice `i`, 0 LEFT and 1 RIGHT. -/
structure SeamRec where
  left : Option Port
  right : Port
  shift : Nat
  pattern : BitVec 64
  deriving DecidableEq, Repr

/-- A nozzle status (section 1.4). -/
inductive NozzleStatus where
  | live | weak | out
  deriving DecidableEq, Repr

/-- A plane's switch record (R7): the pending flag and the switch serial E. -/
structure SwitchRec where
  pending : Bool
  serial : Nat
  deriving DecidableEq, Repr

/-- The Geometry Store. The two nozzle maps hold the positions that are not LIVE, by position number
port × 3,072 + row × 768 + nozzle, strictly rising (R7: every status is LIVE after power-on). -/
structure Geometry where
  planes : Table 6 PlaneRec
  heads : Table 12 HeadRec
  seams : Table 16 SeamRec
  active : List (Nat × NozzleStatus)
  staged : List (Nat × NozzleStatus)
  switches : Table 6 SwitchRec
  offlineFrom : Table 12 (Option Nat)
  deriving DecidableEq, Repr

/-! ### Motion Unit (chapter 3) -/

/-- Which encoder input leads when the web runs forwards (R36). -/
inductive Sense where
  | aLeads | bLeads
  deriving DecidableEq, Repr

/-- An input filter (R38, R60): the accepted level, the hold count while the input differs from it (samples since the
one that started the hold), and whether the last sample brought the hold to the setting. -/
structure InputFilter where
  level : Bool
  hold : Option Nat
  reached : Bool
  deriving DecidableEq, Repr

/-- A ratio of N print lines to M counts (R36). -/
structure Ratio where
  n : Nat
  m : Nat
  deriving DecidableEq, Repr

/-- The time stamp of the most recent boundary and whether it was a print tick (R53). -/
structure Boundary where
  stamp : Nat
  printTick : Bool
  deriving DecidableEq, Repr

/-- The Motion Unit (R36, R38, R40, R42, R43, R53, R54). -/
structure Motion where
  sense : Sense
  filter : Nat
  reverseLimit : Nat
  ratio : Option Ratio
  pendingRatio : Option Ratio
  inputA : InputFilter
  inputB : InputFilter
  lastPair : Bool × Bool
  rawCount : BitVec 32
  acc : Nat
  p : Int
  h : Int
  lastBoundary : Option Boundary
  period : Option Nat
  deriving DecidableEq, Repr

/-! ### Placement Unit (chapter 4) -/

/-- Which accepted changes of an input are edges (R58). -/
inductive EdgeSelect where
  | none | rising | falling | both
  deriving DecidableEq, Repr

/-- The settings, the input filter and the lockout end of one product-detect input (R58, R60). -/
structure Trigger where
  edge : EdgeSelect
  filter : Nat
  lockout : Nat
  input : InputFilter
  lockoutEnd : Int
  deriving DecidableEq, Repr

/-- A placement (R61). -/
structure Placement where
  copy : Nat
  start : Int
  length : Nat
  gap : Nat
  base : Nat
  deriving DecidableEq, Repr

/-- The Placement Unit (R58, R61, R62, R71). -/
structure PlacementUnit where
  triggers : Table 4 Trigger
  list : List Placement
  nextSequence : Nat
  floor : Int
  dMax : Nat
  deriving DecidableEq, Repr

/-! ### Frame Memory Controller (chapter 5) -/

/-- The bits in error of a stored word and its check bits: one, which a read corrects, or two, which it cannot (R80). -/
inductive WordError where
  | single | double
  deriving DecidableEq, Repr

/-- A memory plan (R78). -/
structure Plan where
  slots : Nat
  depth : Table 6 Nat
  deriving DecidableEq, Repr

/-- The Frame Memory Controller: the bytes of the frame memory by address block × 4,096 + byte, the words in error by
number block × 512 + word, and the memory plan (R76, R78). -/
structure FrameMemory where
  cells : List Host.Cell
  errors : List (Nat × WordError)
  plan : Option Plan
  deriving DecidableEq, Repr

/-! ### Template Store (chapter 5) -/

/-- The state of a template record (R83). -/
inductive TemplateState where
  | free | filling | complete
  deriving DecidableEq, Repr

/-- A template record (R83). -/
structure TemplateRec where
  state : TemplateState
  length : Nat
  first : Nat
  blocks : Nat
  fill : Table 6 Nat
  deriving DecidableEq, Repr

/-- A run of blocks (R84). -/
structure Extent where
  first : Nat
  blocks : Nat
  deriving DecidableEq, Repr

/-- An accepted template line whose block write is in flight (R86, R87). -/
structure TemplateWrite where
  channel : DataCh
  template : TemplateIx
  plane : Plane
  block : Nat
  pixels : List Byte
  deriving DecidableEq, Repr

/-- The Template Store (R83, R84, R86). -/
structure TemplateStore where
  records : Table 16 TemplateRec
  free : List Extent
  writing : Option TemplateWrite
  deriving DecidableEq, Repr

/-! ### Patch Pool and Composer (chapter 6) -/

/-- How a patch's pixels meet the line (R106). -/
inductive PatchMode where
  | replace | overlay
  deriving DecidableEq, Repr

/-- An index entry of the Patch Pool (R96). -/
structure PatchEntry where
  copy : Nat
  plane : Plane
  line : Nat
  first : Nat
  count : Nat
  mode : PatchMode
  slot : Nat
  channel : DataCh
  deriving DecidableEq, Repr

/-- An accepted patch whose slot write is in flight (R98). -/
structure PatchWrite where
  entry : PatchEntry
  pixels : List Byte
  deriving DecidableEq, Repr

/-- The Patch Pool (R96): the held patches in index order; a slot is held while an entry names it. -/
structure PatchPool where
  index : List PatchEntry
  writing : Option PatchWrite
  deriving DecidableEq, Repr

/-- What places a copy (R92). -/
inductive Source where
  | pd (input : PdIx)
  | continuous
  deriving DecidableEq, Repr

/-- A page entry of the Page Queue (R92). -/
structure PageEntry where
  first : Nat
  copies : Nat
  base : Nat
  length : Nat
  gap : Nat
  top : Nat
  source : Source
  template : Option TemplateIx
  patched : Bool
  deriving DecidableEq, Repr

/-- An entry of the mark table (R102). -/
structure MarkEntry where
  copy : Nat
  mark : Nat
  accepted : BitVec 32
  deriving DecidableEq, Repr

/-- A composition in flight with what its beginning fixed (R105): the configured planes with the ring block of each, and
the patches of the line. -/
structure Composition where
  targets : List (Plane × Nat)
  patches : List PatchEntry
  deriving DecidableEq, Repr

/-- The Composer (R92, R101, R102, R105). -/
structure Composer where
  pages : List PageEntry
  nextSequence : Nat
  nextSerial : Nat
  copy : Nat
  line : Nat
  marks : List MarkEntry
  flight : Option Composition
  deriving DecidableEq, Repr

/-! ### Ring Manager (chapter 7) -/

/-- An entry of a plane ring (R113). -/
structure RingEntry where
  serial : Nat
  position : Nat
  deriving DecidableEq, Repr

/-- A plane ring with the plane's frontier and retire point (R113, R118, R120); the fill is the number of entries. -/
structure Ring where
  entries : List RingEntry
  writePosition : Nat
  frontier : Int
  retire : Int
  deriving DecidableEq, Repr

/-! ### Head ports (chapter 8) -/

/-- A port state (R126). -/
inductive PortState where
  | unassigned | ready | offline
  deriving DecidableEq, Repr

/-- A row's load state (R130). -/
inductive LoadState where
  | empty | queued | loading | loaded
  deriving DecidableEq, Repr

/-- A row's pending line: the serial and the ring position its lookup found (R130). -/
structure PendingLine where
  serial : Nat
  position : Nat
  deriving DecidableEq, Repr

/-- A row engine (R130) with the end of its running load (R133), its loaded data and the note of R33, the levels its head
row last latched (R138) and the release serial the Ring Manager keeps for it (R119). `due` is the due time while the
due flag is set; `window` is the end time while the fire state is WINDOW. `joined` is the model's own: the tick at which the
row last joined the arbiter queue, by which rows that join at one instant stand in row order (R132). -/
structure Row where
  load : LoadState
  line : Option PendingLine
  due : Option Nat
  window : Option Nat
  loadEnd : Nat
  data : List Nat
  inked : Bool
  latched : List Nat
  release : Int
  joined : Nat
  deriving DecidableEq, Repr

/-- Whether a keep-wet pulse re-arms the timer (R142). -/
inductive KeepWetMode where
  | repeating | once
  deriving DecidableEq, Repr

/-- The keep-wet settings and timer of a port (R142). -/
structure KeepWet where
  interval : Nat
  mode : KeepWetMode
  armed : Bool
  start : Nat
  deferred : Bool
  deriving DecidableEq, Repr

/-- A head port (R126, R127, R130, R132, R142). -/
structure HeadPort where
  state : PortState
  faultCount : Nat
  rows : Table 4 Row
  arbiter : List RowIx
  keepWet : KeepWet
  deriving DecidableEq, Repr

/-! ### Event counters (R175 and section 11.7) -/

/-- The event counters of the part, by the names of section 11.7. -/
inductive CounterId where
  | encoderErrors | reTravelBoundaries | reTravelEdges | lockoutEdges | missedProducts | earlyTriggers
  | copiesPrinted | correctedWords | uncorrectableWords | templateLinesDropped | patchesDropped
  | patchesClipped | laterHalts | headerErrors | protocolErrors
  | underruns (plane : Plane)
  | lateLines (plane : Plane)
  | dropFires (port : Port)
  | forcedFires (port : Port)
  | lateFires (port : Port)
  | skippedLines (port : Port)
  | keepWetPulses (port : Port)
  deriving DecidableEq, Repr

/-- Every event counter with its announced flag: 15 part-wide, 2 per plane and 5 per port. -/
structure Counters where
  count : Table 87 (BitVec 32)
  announced : Table 87 Bool
  deriving DecidableEq, Repr

/-! ### Feed Link Port and Request Handler (chapters 10 and 11) -/

/-- The link state (R160). -/
inductive LinkState where
  | down | training | up
  deriving DecidableEq, Repr

/-- The state of a data channel (R166). -/
inductive ChannelState where
  | closed | waiting | pending | opened | draining
  deriving DecidableEq, Repr

/-- A data channel (R166): bit `p` of the plane set is plane `p`. -/
structure Channel where
  state : ChannelState
  planes : BitVec 6
  quota : Nat
  deriving DecidableEq, Repr

/-- The counts of one channel 0 to 3 (R164, R165). -/
structure Credit where
  received : BitVec 16
  limit : BitVec 16
  announced : BitVec 16
  deriving DecidableEq, Repr

/-- What a received header announces: the frame being received (R162). -/
inductive FrameKind where
  | request
  | patch (channel : DataCh)
  | templateLine (channel : DataCh)
  deriving DecidableEq, Repr

/-- The frame whose header has passed and whose payload is to come (R162, R163), and whether a Restart has taken place since: a data
frame in flight then is not handled (R89, R155). -/
structure Incoming where
  kind : FrameKind
  tag : Byte
  length : Nat
  discarded : Bool
  deriving DecidableEq, Repr

/-- A REQUEST frame in the control request queue (R171) and whether its payload check passed (R163). -/
structure QueuedRequest where
  tag : Byte
  payload : List Byte
  intact : Bool
  deriving DecidableEq, Repr

/-- A received data frame that its owner has not taken (R163): a patch or a template line. -/
structure DataFrame where
  isPatch : Bool
  channel : DataCh
  payload : List Byte
  intact : Bool
  deriving DecidableEq, Repr

/-- The result codes of section 11.4. -/
inductive Result where
  | done | unknown | length | corrupt | range | state | held | full | space | inUse | pending | check | ahead
  deriving DecidableEq, Repr

/-- A reply (section 11.4). -/
structure Reply where
  tag : Byte
  code : Byte
  result : Result
  body : List Byte
  deriving DecidableEq, Repr

/-- The reasons a data frame is dropped for (section 11.4). -/
inductive DropReason where
  | channel | payload | state | order | length | ahead | late | range
  deriving DecidableEq, Repr

/-- What a PATCH DROPPED notice says of the dropped frame, each field as received (section 11.5). -/
inductive DroppedItem where
  | patch (plane : Byte) (copy : BitVec 32) (line : BitVec 16)
  | templateLine (plane template : Byte) (line : BitVec 16)
  deriving DecidableEq, Repr

/-- The notices of section 11.5. -/
inductive Notice where
  | jobState (state : JobState) (cause : JobCause)
  | headState (port : Port) (state : PortState)
  | channelState (channel : DataCh) (state : ChannelState)
  | templateComplete (template : TemplateIx)
  | mapSwitched (plane : Plane)
  | patchDropped (item : DroppedItem) (reason : DropReason)
  | copyPrinted (copy : Nat)
  | firstEvent (counter : CounterId)
  deriving DecidableEq, Repr

/-- What the transmitter is sending (R174): a CREDIT frame of channel 0 to 3 with the limit it carries, the reply at the
head of the reply queue, or the notice at the head of the notice queue. -/
inductive Sending where
  | credit (channel : Fin 4) (limit : BitVec 16)
  | reply
  | notice
  deriving DecidableEq, Repr

/-- The Feed Link Port and the Request Handler. A queued reply or notice stands with its place in the order of placing,
which R174 compares; `placed` counts the frames placed so far. `sent` is the last frame sent whole, byte by byte (DESIGN
CHOICE, notes/assumptions/23.md). -/
structure Feed where
  link : LinkState
  trainingStart : Nat
  incoming : Option Incoming
  credit : Table 4 Credit
  channels : Table 3 Channel
  order : List DataCh
  requests : List QueuedRequest
  awaiting : List DataFrame
  replies : List (Nat × Reply)
  notices : List (Nat × Notice)
  placed : Nat
  mask : Byte
  noticesLost : Bool
  sending : Option Sending
  sent : List Byte
  deriving DecidableEq, Repr

/-! ### Inputs from outside (00_scope section 2.3) -/

/-- The levels at the input pins. -/
structure Pins where
  a : Bool
  b : Bool
  pd : Table 4 Bool
  fault : Table 12 Bool
  deriving DecidableEq, Repr

/-- What the outside presents at one tick of the timebase: the pin levels, and stored words that fall into error. -/
structure Sample where
  pins : Pins
  upsets : List (Nat × WordError)
  deriving DecidableEq, Repr

/-! ### The part -/

/-- Every piece of state of the part. `pending`, `now`, `pins`, `inputs` and `sampled` are the model's own: the waiting
commands, the tick of the timebase, the pin levels last sampled, the samples to come, and whether a sample has been
taken since power-on (R39, R60). `resetHeld` is the RESET input (R159). -/
structure State where
  pending : List Instr
  now : Nat
  pins : Pins
  inputs : List Sample
  sampled : Bool
  resetHeld : Bool
  job : Job
  geo : Geometry
  motion : Motion
  place : PlacementUnit
  memory : FrameMemory
  templates : TemplateStore
  pool : PatchPool
  composer : Composer
  rings : Table 6 Ring
  ports : Table 12 HeadPort
  counters : Counters
  feed : Feed
  deriving DecidableEq, Repr

/-- The machine's faults. -/
inductive Fault where
  /-- An operation whose block numbers lie outside the frame memory, which holds blocks 0 to 262,143 (R76). Raised by
  the four completions of a block operation (LOAD_COMPLETE, COMPOSITION_COMPLETE, TEMPLATE_LINE_WRITE_COMPLETE,
  PATCH_WRITE_COMPLETE) in states that no run reaches, since every block they use lies in the memory plan (R78).
  Safe. DESIGN CHOICE, notes/assumptions/18.md. -/
  | noSuchBlock (block : Nat)
  deriving DecidableEq, Repr

/-- The machine's refusals. -/
inductive Refusal where
  /-- The command of this mnemonic has no meaning yet. Raised by exec's arms alone. Safe. -/
  | notModelled (mnemonic : String)
  deriving DecidableEq, Repr

/-! ### The state after reset -/

/-- Power-on plane record (R1). -/
def PlaneRec.reset : PlaneRec := ⟨0, 0, 0, 0, 3⟩
/-- Power-on head record (R3). -/
def HeadRec.reset : HeadRec := ⟨none, 0, 1, 8, .all 4 0, .all 4 0, 100, .goOn⟩
/-- Power-on seam entry: empty, all choices LEFT, shift 0 (R6). -/
def SeamRec.reset : SeamRec := ⟨none, 0, 0, 0⟩
/-- The Geometry Store after power-on (R1, R3, R6, R7, R13). -/
def Geometry.reset : Geometry :=
  ⟨.all 6 .reset, .all 12 .reset, .all 16 .reset, [], [], .all 6 ⟨false, 0⟩, .all 12 none⟩
/-- An input filter before its first sample. -/
def InputFilter.reset : InputFilter := ⟨false, none, false⟩
/-- The Motion Unit after power-on (R36, R39, R42, R43, R53, R54). -/
def Motion.reset : Motion :=
  { sense := .aLeads, filter := 0, reverseLimit := 64, ratio := none, pendingRatio := none, inputA := .reset,
    inputB := .reset, lastPair := (false, false), rawCount := 0, acc := 0, p := 0, h := 0, lastBoundary := none,
    period := none }
/-- A product-detect input after power-on (R58). -/
def Trigger.reset : Trigger := ⟨.none, 0, 0, .reset, 0⟩
/-- The Placement Unit after power-on (R58, R61). -/
def PlacementUnit.reset : PlacementUnit := ⟨.all 4 .reset, [], 0, 0, 0⟩
/-- The Frame Memory Controller after power-on (R76, R78). -/
def FrameMemory.reset : FrameMemory := ⟨[], [], none⟩
/-- A FREE template record (R83). -/
def TemplateRec.reset : TemplateRec := ⟨.free, 0, 0, 0, .all 6 0⟩
/-- The Template Store after power-on (R83, R84). -/
def TemplateStore.reset : TemplateStore := ⟨.all 16 .reset, [], none⟩
/-- The Patch Pool after power-on (R96). -/
def PatchPool.reset : PatchPool := ⟨[], none⟩
/-- The Composer after power-on (R92, R101, R102). -/
def Composer.reset : Composer := ⟨[], 0, 0, 0, 0, [], none⟩
/-- A plane ring after power-on (R113, R118, R120). -/
def Ring.reset : Ring := ⟨[], 0, -1, -1⟩
/-- A row engine after power-on (R130). -/
def Row.reset : Row := ⟨.empty, none, none, none, 0, [], false, [], -1, 0⟩
/-- Keep-wet settings and timer after power-on (R142). -/
def KeepWet.reset : KeepWet := ⟨0, .repeating, false, 0, false⟩
/-- A head port after power-on (R126, R130, R132, R142). The fault count is 0. DESIGN CHOICE, notes/assumptions/11.md. -/
def HeadPort.reset : HeadPort := ⟨.unassigned, 0, .all 4 .reset, [], .reset⟩
/-- Every counter 0 and every announced flag clear (R175). -/
def Counters.reset : Counters := ⟨.all 87 0, .all 87 false⟩
/-- A CLOSED data channel (R166). -/
def Channel.reset : Channel := ⟨.closed, 0, 0⟩
/-- The Feed Link Port after power-on (R160, R161, R166, R171, R172); the mask enables all but COPY PRINTED. -/
def Feed.reset : Feed :=
  { link := .down, trainingStart := 0, incoming := none, credit := .all 4 ⟨0, 0, 0⟩, channels := .all 3 .reset,
    order := [], requests := [], awaiting := [], replies := [], notices := [], placed := 0, mask := 0xBF,
    noticesLost := false, sending := none, sent := [] }
/-- Input pins at their low level. -/
def Pins.reset : Pins := ⟨false, false, .all 4 false, .all 12 false⟩

/-- The machine right after power-on: every field at the value the specification states, and where it states none at the
one notes/assumptions/11.md names (DESIGN CHOICE). -/
def State.reset : State :=
  { pending := [], now := 0, pins := .reset, inputs := [], sampled := false, resetHeld := false,
    job := ⟨.idle, .none⟩, geo := .reset, motion := .reset, place := .reset, memory := .reset, templates := .reset,
    pool := .reset, composer := .reset, rings := .all 6 .reset, ports := .all 12 .reset, counters := .reset,
    feed := .reset }

end Sys2Proof.Machine
end

