-- ==== Sys2Proof/Machine/Ops.lean ====
section
/-! DEFINITION. Machine/Ops.lean: the named operations every block uses: replacing one block's state, placing a notice, and
the sparse stores that hold the nozzle maps and the words in error. -/

namespace Sys2Proof.Machine

/-! ### One block's state replaced -/

/-- `s` with Job Control's state replaced. -/
def State.setJob (s : State) (x : Job) : State := { s with job := x }
/-- `s` with the Geometry Store's state replaced. -/
def State.setGeo (s : State) (x : Geometry) : State := { s with geo := x }
/-- `s` with the Motion Unit's state replaced. -/
def State.setMotion (s : State) (x : Motion) : State := { s with motion := x }
/-- `s` with the Placement Unit's state replaced. -/
def State.setPlace (s : State) (x : PlacementUnit) : State := { s with place := x }
/-- `s` with the Frame Memory Controller's state replaced. -/
def State.setMemory (s : State) (x : FrameMemory) : State := { s with memory := x }
/-- `s` with the Template Store's state replaced. -/
def State.setTemplates (s : State) (x : TemplateStore) : State := { s with templates := x }
/-- `s` with the Patch Pool's state replaced. -/
def State.setPool (s : State) (x : PatchPool) : State := { s with pool := x }
/-- `s` with the Composer's state replaced. -/
def State.setComposer (s : State) (x : Composer) : State := { s with composer := x }
/-- `s` with the plane rings replaced. -/
def State.setRings (s : State) (x : Table 6 Ring) : State := { s with rings := x }
/-- `s` with the head ports replaced. -/
def State.setPorts (s : State) (x : Table 12 HeadPort) : State := { s with ports := x }
/-- `s` with the event counters replaced. -/
def State.setCounters (s : State) (x : Counters) : State := { s with counters := x }
/-- `s` with the Feed Link Port's state replaced. -/
def State.setFeed (s : State) (x : Feed) : State := { s with feed := x }

/-- `s` with port `h` changed by `f`. -/
def State.updPort (s : State) (h : Port) (f : HeadPort → HeadPort) : State := s.setPorts (s.ports.upd h f)

/-- `s` with row `k` of port `h` changed by `f`. -/
def State.updRow (s : State) (h : Port) (k : RowIx) (f : Row → Row) : State :=
  s.updPort h (fun p => { p with rows := p.rows.upd k f })

/-- `s` with the ring of plane `p` changed by `f`. -/
def State.updRing (s : State) (p : Plane) (f : Ring → Ring) : State := s.setRings (s.rings.upd p f)

/-- Row `k` of port `h`. -/
def State.row (s : State) (h : Port) (k : RowIx) : Row := (s.ports.get h).rows.get k

/-! ### Notices (R172) -/

/-- The kind code of a notice, which is also its bit of the notice mask (section 11.5). -/
def Notice.kind : Notice → Nat
  | .jobState .. => 0
  | .headState .. => 1
  | .channelState .. => 2
  | .templateComplete _ => 3
  | .mapSwitched _ => 4
  | .patchDropped .. => 5
  | .copyPrinted _ => 6
  | .firstEvent _ => 7

/-- R172: a notice of a disabled kind is not placed; an enabled one joins the end of the notice queue, or sets the
notices-lost flag when the queue holds 32. -/
def placeNotice (n : Notice) (s : State) : State :=
  if s.feed.mask.getLsbD n.kind then
    if s.feed.notices.length < Config.noticeEntries then
      s.setFeed { s.feed with notices := s.feed.notices ++ [(s.feed.placed, n)], placed := s.feed.placed + 1 }
    else s.setFeed { s.feed with noticesLost := true }
  else s

/-! ### Sparse stores: (key, value) pairs, keys strictly rising, no value equal to the default -/

/-- The value at key `a`; an unlisted key holds the default `d`. -/
def sparseRead {α : Type} (d : α) : List (Nat × α) → Nat → α
  | [], _ => d
  | (k, v) :: rest, a => if k = a then v else sparseRead d rest a

/-- The store with key `a` removed from a rising list. -/
def sparseErase {α : Type} (a : Nat) : List (Nat × α) → List (Nat × α)
  | [] => []
  | (k, v) :: rest => if k = a then sparseErase a rest else (k, v) :: sparseErase a rest

/-- The store with `(a, x)` put at its place in a rising list. -/
def sparseInsert {α : Type} (a : Nat) (x : α) : List (Nat × α) → List (Nat × α)
  | [] => [(a, x)]
  | (k, v) :: rest => if a < k then (a, x) :: (k, v) :: rest else (k, v) :: sparseInsert a x rest

/-- The store with `x` at key `a`: listed in its place, or unlisted when `x` is the default. -/
def sparseWrite {α : Type} [DecidableEq α] (d : α) (m : List (Nat × α)) (a : Nat) (x : α) : List (Nat × α) :=
  if x = d then sparseErase a m else sparseInsert a x (sparseErase a m)

/-- The store with the values `xs` at keys `a`, `a + 1`, and so on. -/
def sparseWriteRun {α : Type} [DecidableEq α] (d : α) (m : List (Nat × α)) (a : Nat) : List α → List (Nat × α)
  | [] => m
  | x :: xs => sparseWriteRun d (sparseWrite d m a x) (a + 1) xs

/-- The store `dst` with every key that satisfies `pick` taken from `src`. -/
def sparseCopy {α : Type} [DecidableEq α] (d : α) (pick : Nat → Bool) (src dst : List (Nat × α)) : List (Nat × α) :=
  (src.filter (fun e => pick e.1)).foldl (fun m e => sparseWrite d m e.1 e.2) (dst.filter (fun e => !pick e.1))

/-- Keys strictly rising. -/
def keysRise {α : Type} : List (Nat × α) → Bool
  | [] => true
  | [_] => true
  | (k, _) :: (k', v) :: rest => decide (k < k') && keysRise ((k', v) :: rest)

/-- The canonical form of a sparse store: keys strictly rising and no listed default. -/
def sparseWf {α : Type} [DecidableEq α] (d : α) (m : List (Nat × α)) : Bool :=
  keysRise m && m.all (fun e => e.2 != d)

end Sys2Proof.Machine
end

