-- ==== Sys2Proof/Machine/Flags.lean ====
section
/-! DEFINITION. Machine/Flags.lean: the event counters and their announced flags (R175, section 11.7). -/

namespace Sys2Proof.Machine

/-- Where a counter stands among all counters: the part-wide codes 0 to 14, then two per plane, then five per port. -/
def CounterId.slot : CounterId → Nat
  | .encoderErrors => 0
  | .reTravelBoundaries => 1
  | .reTravelEdges => 2
  | .lockoutEdges => 3
  | .missedProducts => 4
  | .earlyTriggers => 5
  | .copiesPrinted => 6
  | .correctedWords => 7
  | .uncorrectableWords => 8
  | .templateLinesDropped => 9
  | .patchesDropped => 10
  | .patchesClipped => 11
  | .laterHalts => 12
  | .headerErrors => 13
  | .protocolErrors => 14
  | .underruns p => 15 + 2 * p.val
  | .lateLines p => 16 + 2 * p.val
  | .dropFires h => 27 + 5 * h.val
  | .forcedFires h => 28 + 5 * h.val
  | .lateFires h => 29 + 5 * h.val
  | .skippedLines h => 30 + 5 * h.val
  | .keepWetPulses h => 31 + 5 * h.val

/-- Every counter has a slot of the table. -/
theorem CounterId.slot_lt (c : CounterId) : c.slot < 87 := by
  cases c <;> simp only [CounterId.slot] <;> omega

/-- The slot as a table index. -/
def CounterId.ix (c : CounterId) : Fin 87 := ⟨c.slot, c.slot_lt⟩

/-- The counter code of section 11.7. -/
def CounterId.code : CounterId → Nat
  | .encoderErrors => 0
  | .reTravelBoundaries => 1
  | .reTravelEdges => 2
  | .lockoutEdges => 3
  | .missedProducts => 4
  | .earlyTriggers => 5
  | .copiesPrinted => 6
  | .correctedWords => 7
  | .uncorrectableWords => 8
  | .templateLinesDropped => 9
  | .patchesDropped => 10
  | .patchesClipped => 11
  | .laterHalts => 12
  | .headerErrors => 13
  | .protocolErrors => 14
  | .underruns _ => 16
  | .lateLines _ => 17
  | .dropFires _ => 20
  | .forcedFires _ => 21
  | .lateFires _ => 22
  | .skippedLines _ => 23
  | .keepWetPulses _ => 24

/-- The plane or port of a counter, 0 for a part-wide one (section 11.5). -/
def CounterId.index : CounterId → Nat
  | .underruns p => p.val
  | .lateLines p => p.val
  | .dropFires h => h.val
  | .forcedFires h => h.val
  | .lateFires h => h.val
  | .skippedLines h => h.val
  | .keepWetPulses h => h.val
  | _ => 0

/-- The count a counter stands at. -/
def State.countOf (s : State) (c : CounterId) : BitVec 32 := s.counters.count.get c.ix

/-- A counter's announced flag. -/
def State.isAnnounced (s : State) (c : CounterId) : Bool := s.counters.announced.get c.ix

/-- The next value of a 32-bit event counter, which saturates (00_scope section 4). -/
def saturatingInc (n : BitVec 32) : BitVec 32 := if n = 0xFFFFFFFF then n else n + 1

/-- The counters after one increment of `c`: the count saturates and the announced flag is set (R175). -/
def Counters.increment (t : Counters) (c : CounterId) : Counters :=
  { count := t.count.upd c.ix saturatingInc, announced := t.announced.put c.ix true }

/-- One increment of a counter (R175): its first while the announced flag is clear places a FIRST EVENT notice. -/
def bump (c : CounterId) (s : State) : State :=
  if s.isAnnounced c then s.setCounters (s.counters.increment c)
  else placeNotice (.firstEvent c) (s.setCounters (s.counters.increment c))

/-- Every announced flag cleared (R175). -/
def Counters.clearAnnounced (t : Counters) : Counters := { t with announced := .all 87 false }

/-- Every counter set to 0 (R182, R155). -/
def Counters.clearCounts (t : Counters) : Counters := { t with count := .all 87 0 }

end Sys2Proof.Machine
end

