-- ==== Sys2Proof/Machine/Memory.lean ====
section
/-! DEFINITION. Machine/Memory.lean: the frame memory, its words in error, the memory plan and the pixel packing
(chapter 5, R179). -/

namespace Sys2Proof.Machine

/-- What a byte that nothing has written reads as. R76 leaves the contents after power-on undefined and no block reads
them; the model names 0. DESIGN CHOICE, notes/assumptions/1.md. -/
def unlistedByte : Byte := 0

/-- The byte of the frame memory at an address. -/
def FrameMemory.byte (m : FrameMemory) (address : Nat) : Byte := sparseRead unlistedByte m.cells address

/-- The canonical form of the frame memory's cells. -/
def FrameMemory.wf (m : FrameMemory) : Bool := sparseWf unlistedByte m.cells

/-- The listed cells of a run of bytes from address `a`. -/
def cellsOf (a : Nat) : List Byte → List Host.Cell
  | [] => []
  | b :: bs => if b = unlistedByte then cellsOf (a + 1) bs else (a, b) :: cellsOf (a + 1) bs

/-- The number of the first word of a block. -/
def firstWord (block : Nat) : Nat := block * Config.blockWords

/-- Whether a word number lies in a block. -/
def wordInBlock (block w : Nat) : Bool := decide (firstWord block ≤ w ∧ w < firstWord block + Config.blockWords)

/-- R77: a write covers the whole block, with fresh check bits. `bytes` are the block's first bytes; the rest are 0. -/
def FrameMemory.writeBlock (m : FrameMemory) (block : Nat) (bytes : List Byte) : FrameMemory :=
  let a := block * Config.blockBytes
  { m with
    cells := m.cells.filter (fun c => decide (c.1 < a)) ++ cellsOf a (bytes.take Config.blockBytes)
      ++ m.cells.filter (fun c => decide (a + Config.blockBytes ≤ c.1)),
    errors := m.errors.filter (fun e => !wordInBlock block e.1) }

/-- The error a stored word holds, if any. -/
def FrameMemory.errorAt (m : FrameMemory) (w : Nat) : Option WordError := (m.errors.find? (fun e => e.1 == w)).map (·.2)

/-- Pixel `j` of a byte (R179): pixel 0 in the least significant pair of bits. -/
def pixelOfByte (b : Byte) (j : Nat) : Nat := b.toNat / 4 ^ j % 4

/-- Pixel `i` of a pixel area (R179). -/
def areaPixel (area : List Byte) (i : Nat) : Nat := pixelOfByte (area.getD (i / 4) 0) (i % 4)

/-- The bytes that hold pixels 0 to `n` − 1, pixel `i` at level `f i`; the unused pairs of the last byte are level 0. -/
def packPixels (n : Nat) (f : Nat → Nat) : List Byte :=
  let g := fun i => if i < n then f i % 4 else 0
  (List.range ((n + 3) / 4)).map fun k =>
    BitVec.ofNat 8 (g (4 * k) + 4 * g (4 * k + 1) + 16 * g (4 * k + 2) + 64 * g (4 * k + 3))

/-- The pixel of column `c` as a read of a line block delivers it: the stored level, or level 0 where the word is
uncorrectable (R80). -/
def FrameMemory.pixel (m : FrameMemory) (block c : Nat) : Nat :=
  if m.errorAt (firstWord block + c / 32) = some .double then 0
  else pixelOfByte (m.byte (block * Config.blockBytes + c / 4)) (c % 4)

/-- R80: the reads of one block count each word in error among the words read, corrected or uncorrectable. `need w`
says whether word `w` (0 to 511) of the block is read. The words are counted in increasing number. DESIGN CHOICE,
notes/assumptions/13.md. -/
def countReads (block : Nat) (need : Nat → Bool) (s : State) : State :=
  (s.memory.errors.filter (fun e => wordInBlock block e.1 && need (e.1 - firstWord block))).foldl
    (fun s e => match e.2 with
      | .single => bump .correctedWords s
      | .double => bump .uncorrectableWords s) s

/-! ### The memory plan (R78) -/

/-- Pool slots, 0 while no plan is set. -/
def FrameMemory.slots (m : FrameMemory) : Nat := match m.plan with | some p => p.slots | none => 0

/-- Ring depth of a plane, 0 while no plan is set. -/
def FrameMemory.depth (m : FrameMemory) (p : Plane) : Nat := match m.plan with | some q => q.depth.get p | none => 0

/-- The sum of the ring depths of the planes before plane number `n`. -/
def Plan.depthBelow (q : Plan) (n : Nat) : Nat :=
  allPlanes.foldl (fun t p => if p.val < n then t + q.depth.get p else t) 0

/-- First block of a plane's ring. -/
def FrameMemory.ringBase (m : FrameMemory) (p : Plane) : Nat :=
  match m.plan with | some q => q.slots + q.depthBelow p.val | none => 0

/-- First block of the template region of a plan. -/
def Plan.templateBase (q : Plan) : Nat := q.slots + q.depthBelow 6

end Sys2Proof.Machine
end

