-- ==== Sys2Proof/Machine/Geometry.lean ====
section
/-! DEFINITION. Machine/Geometry.lean: who covers which column, the nozzle map, and the Start Job checks (chapter 1). -/

namespace Sys2Proof.Machine

/-- A plane is configured when its width is at least 1 (R1). -/
def Geometry.configured (g : Geometry) (p : Plane) : Bool := decide (0 < (g.planes.get p).width)

/-- The configured planes in plane order. -/
def Geometry.configuredPlanes (g : Geometry) : List Plane := allPlanes.filter g.configured

/-- A head is in use when its plane field names a configured plane (R3). -/
def Geometry.inUse (g : Geometry) (h : Port) : Bool :=
  match (g.heads.get h).plane with | some p => g.configured p | none => false

/-- A head is in use on plane `p`. -/
def Geometry.inUseOn (g : Geometry) (p : Plane) (h : Port) : Bool :=
  (g.heads.get h).plane == some p && g.configured p

/-- The heads in use on a plane in port order. -/
def Geometry.headsOn (g : Geometry) (p : Plane) : List Port := allPorts.filter (g.inUseOn p)

/-- The heads in use. -/
def Geometry.usedHeads (g : Geometry) : List Port := allPorts.filter g.inUse

/-- The last column of a head's span (R5). -/
def HeadRec.last (r : HeadRec) : Nat := r.first + r.rows * r.nozzles - 1

/-- Whether a head's span holds a column (R5). -/
def HeadRec.spans (r : HeadRec) (c : Nat) : Bool := decide (r.first ≤ c ∧ c ≤ r.last)

/-- The column nozzle `n` of row `k` reaches (R5). -/
def HeadRec.column (r : HeadRec) (k : RowIx) (n : Nat) : Nat := r.first + n * r.rows + k.val

/-- The number of a nozzle position in the nozzle maps. -/
def nozzlePosition (h : Port) (k n : Nat) : Nat := h.val * (4 * Config.rowNozzles) + k * Config.rowNozzles + n

/-- The port a nozzle position belongs to. -/
def positionPort (i : Nat) : Nat := i / (4 * Config.rowNozzles)

/-- A status in a nozzle map; positions not listed are LIVE (R7). -/
def nozzleStatus (m : List (Nat × NozzleStatus)) (h : Port) (k n : Nat) : NozzleStatus :=
  sparseRead .live m (nozzlePosition h k n)

/-- Whether a nozzle position belongs to a head in use on plane `p`. -/
def Geometry.positionOn (g : Geometry) (p : Plane) (i : Nat) : Bool :=
  (g.headsOn p).any (fun h => positionPort i == h.val)

/-- The status for serial `s` of a nozzle of head `h` on plane `p` (R10 case 1, R32): the staged one from the plane's
switch serial on while a switch is pending, and the active one otherwise. -/
def Geometry.statusFor (g : Geometry) (p : Plane) (serial : Nat) (h : Port) (k n : Nat) : NozzleStatus :=
  let w := g.switches.get p
  if w.pending && decide (w.serial ≤ serial) then nozzleStatus g.staged h k n else nozzleStatus g.active h k n

/-- R9 steps 1 to 4: the plane's active statuses copied to the staged ones, the listed statuses written, and the switch
made pending with E one above the frontier. -/
def Geometry.stage (g : Geometry) (p : Plane) (frontier : Int) (h : Port) (row first : Nat)
    (statuses : List NozzleStatus) : Geometry :=
  let copied := sparseCopy .live (g.positionOn p) g.active g.staged
  { g with
    staged := sparseWriteRun .live copied (nozzlePosition h row first) statuses,
    switches := g.switches.put p ⟨true, (frontier + 1).toNat⟩ }

/-- R11 steps 1 and 2: the staged statuses of the plane's heads in use become active and the pending flag clears. -/
def Geometry.completeSwitch (g : Geometry) (p : Plane) : Geometry :=
  { g with
    active := sparseCopy .live (g.positionOn p) g.staged g.active,
    switches := g.switches.upd p (fun w => { w with pending := false }) }

/-- R11: a pending switch of plane `p` completes, with its MAP SWITCHED notice. -/
def completeSwitch (p : Plane) (s : State) : State :=
  placeNotice (.mapSwitched p) (s.setGeo (s.geo.completeSwitch p))

/-- Whether a plane's switch is pending and the retire point has reached E − 1 (R11). -/
def switchReached (s : State) (p : Plane) : Bool :=
  let w := s.geo.switches.get p
  w.pending && decide ((w.serial : Int) ≤ (s.rings.get p).retire + 1)

/-! ### The Start Job checks (R16 to R19) -/

/-- The detail codes of a CHECK reply (section 11.4). -/
inductive CheckDetail where
  | noPlane | noHead | noMotion | noPlan | gap | triple | seam | depth | offline
  deriving DecidableEq, Repr

/-- What a CHECK reply carries: the detail code, the plane and the value of R16. -/
structure CheckFailure where
  detail : CheckDetail
  plane : Nat
  value : Nat
  deriving DecidableEq, Repr

/-- The heads in use on a plane whose spans hold a column. -/
def Geometry.covering (g : Geometry) (p : Plane) (c : Nat) : List Port :=
  (g.headsOn p).filter (fun h => (g.heads.get h).spans c)

/-- One past the last column that any head in use on the plane spans. -/
def Geometry.columnBound (g : Geometry) (p : Plane) : Nat :=
  (g.headsOn p).foldl (fun b h => max b ((g.heads.get h).last + 1)) 0

/-- R17, GAP: the first column below the width in no span. -/
def Geometry.gapOn (g : Geometry) (p : Plane) : Option Nat :=
  (List.range (g.planes.get p).width).find? (fun c => (g.covering p c).isEmpty)

/-- R17, TRIPLE: the lowest column, below the width or beyond, in three spans or more. -/
def Geometry.tripleOn (g : Geometry) (p : Plane) : Option Nat :=
  (List.range (g.columnBound p)).find? (fun c => decide (3 ≤ (g.covering p c).length))

/-- Two heads meet when their spans share a column (R17). -/
def Geometry.meet (g : Geometry) (a b : Port) : Bool :=
  let x := g.heads.get a
  let y := g.heads.get b
  decide (x.first ≤ y.last ∧ y.first ≤ x.last)

/-- Whether a non-empty seam entry names the heads `a` and `b`, in either order. -/
def SeamRec.names (e : SeamRec) (a b : Port) : Bool :=
  match e.left with
  | some l => (l == a && e.right == b) || (l == b && e.right == a)
  | none => false

/-- R18 condition 1: the first pair of heads in use on the plane that meet with no seam entry naming them. -/
def Geometry.unseamedPair (g : Geometry) (p : Plane) : Option Port :=
  (g.headsOn p).find? fun a =>
    (g.headsOn p).any fun b => decide (a.val < b.val) && g.meet a b && !allSeams.any (fun e => (g.seams.get e).names a b)

/-- Whether a non-empty entry names at least one head in use on the plane. -/
def Geometry.seamTouches (g : Geometry) (p : Plane) (e : SeamRec) : Bool :=
  match e.left with
  | some l => g.inUseOn p l || g.inUseOn p e.right
  | none => false

/-- R18 condition 2: what is wrong with an entry that names a head in use on the plane. -/
def Geometry.seamBad (g : Geometry) (p : Plane) (e : SeamRec) : Bool :=
  match e.left with
  | none => false
  | some l =>
    let a := g.heads.get l
    let b := g.heads.get e.right
    !(g.inUseOn p l && g.inUseOn p e.right) || l == e.right || decide (b.first ≤ a.first) || decide (a.last < b.first)
      || decide (b.last ≤ a.last) || decide (64 < a.last - b.first + 1)

/-- The lowest port an entry names. -/
def SeamRec.lowPort (e : SeamRec) : Nat :=
  match e.left with | some l => min l.val e.right.val | none => e.right.val

/-- R18 condition 2: the first entry that names a head in use on the plane and is bad. -/
def Geometry.badSeam (g : Geometry) (p : Plane) : Option SeamIx :=
  allSeams.find? (fun e => g.seamTouches p (g.seams.get e) && g.seamBad p (g.seams.get e))

/-- Whether a non-empty entry names at least one head in use (R18: an entry whose heads are both out of use takes part in no
check). -/
def Geometry.seamTakesPart (g : Geometry) (e : SeamRec) : Bool :=
  match e.left with
  | some l => g.inUse l || g.inUse e.right
  | none => false

/-- R18 condition 3: the first entry that names the same pair of heads as a later one. The condition is the same for every plane. -/
def Geometry.doubleSeam (g : Geometry) : Option SeamIx :=
  allSeams.find? fun e => g.seamTakesPart (g.seams.get e) &&
    allSeams.any fun e' => decide (e.val < e'.val) &&
      (match (g.seams.get e).left with | some l => (g.seams.get e').names l (g.seams.get e).right | none => false)

/-- R18, SEAM: the port a failing plane reports. -/
def Geometry.seamOn (g : Geometry) (p : Plane) : Option Nat :=
  match g.unseamedPair p with
  | some a => some a.val
  | none =>
    match g.badSeam p with
    | some e => some (g.seams.get e).lowPort
    | none => g.doubleSeam.map (fun e => (g.seams.get e).lowPort)

/-- The D values of the rows a head has. -/
def HeadRec.offsets (r : HeadRec) : List Nat :=
  (allRows.filter (fun k => decide (k.val < r.rows))).map (fun k => r.d.get k)

/-- The D values of every row of the given heads. -/
def Geometry.offsetsOf (g : Geometry) (hs : List Port) : List Nat := hs.flatMap (fun h => (g.heads.get h).offsets)

/-- The greatest D over every row of every head in use (R71). -/
def Geometry.dMax (g : Geometry) : Nat := (g.offsetsOf g.usedHeads).foldl max 0

/-- The least D over every row of every head in use (R19). -/
def Geometry.dMin (g : Geometry) : Nat := (g.offsetsOf g.usedHeads).min?.getD 0

/-- The ring depth a plane needs (R19). -/
def Geometry.leastDepth (g : Geometry) (p : Plane) : Nat := (g.offsetsOf (g.headsOn p)).foldl max 0 + 2 - g.dMin

/-- The first plane of a list on which a check fails, with the value it reports. -/
def failOn (detail : CheckDetail) (f : Plane → Option Nat) : List Plane → Option CheckFailure
  | [] => none
  | p :: ps => match f p with | some v => some ⟨detail, p.val, v⟩ | none => failOn detail f ps

/-- R16: the checks in order; the first that fails decides. -/
def startCheck (s : State) : Option CheckFailure :=
  let g := s.geo
  let ps := g.configuredPlanes
  let tests : List (Option CheckFailure) :=
    [ if ps.isEmpty then some ⟨.noPlane, 0, 0⟩ else none,
      failOn .noHead (fun p => if (g.headsOn p).isEmpty then some 0 else none) ps,
      if s.motion.ratio.isNone then some ⟨.noMotion, 0, 0⟩ else none,
      if s.memory.plan.isNone then some ⟨.noPlan, 0, 0⟩ else none,
      failOn .gap g.gapOn ps,
      failOn .triple g.tripleOn ps,
      failOn .seam g.seamOn ps,
      failOn .depth (fun p => if s.memory.depth p < g.leastDepth p then some (g.leastDepth p) else none) ps,
      failOn .offline
        (fun p => ((g.headsOn p).find? (fun h => (s.ports.get h).state == .offline)).map (fun h => h.val)) ps ]
  tests.findSome? id

end Sys2Proof.Machine
end

