-- ==== Sys2Proof/Machine/Rings.lean ====
section
/-! DEFINITION. Machine/Rings.lean: commit, lookup, row reports, frontier, retire point and retirement (chapter 7). -/

namespace Sys2Proof.Machine

/-- The causes of a release report (R117). -/
inductive ReleaseCause where
  | loaded | underrun | skipped | abandoned
  deriving DecidableEq, Repr

/-- The plane a head prints, if it is in use. -/
def State.planeOf (s : State) (h : Port) : Option Plane :=
  match (s.geo.heads.get h).plane with
  | some p => if s.geo.configured p then some p else none
  | none => none

/-- The rows of a head that its record gives it. -/
def State.rowsOf (s : State) (h : Port) : List RowIx := allRows.filter (fun k => decide (k.val < (s.geo.heads.get h).rows))

/-- The participating rows of plane `p` (R120): every row of every head in use on `p` whose port is READY. -/
def State.participating (s : State) (p : Plane) : List (Port × RowIx) :=
  ((s.geo.headsOn p).filter (fun h => (s.ports.get h).state == .ready)).flatMap
    (fun h => (s.rowsOf h).map (fun k => (h, k)))

/-- The least of a list of release serials. -/
def leastOf : Int → List Int → Int
  | x, [] => x
  | x, y :: ys => leastOf (min x y) ys

/-- The retire point formed over the participating rows, or the present one when there is none (R120). -/
def State.formRetire (s : State) (p : Plane) : Int :=
  match (s.participating p).map (fun r => (s.row r.1 r.2).release) with
  | [] => (s.rings.get p).retire
  | x :: xs => leastOf x xs

/-- A ring with its retire point at `r`: every entry at or below it is retired (R121). -/
def Ring.retireTo (g : Ring) (r : Int) : Ring :=
  { g with retire := r, entries := g.entries.filter (fun e => decide (r < (e.serial : Int))) }

/-- The retire point of a plane formed again, with the retirement its rise brings about (R120, R121). -/
def reformRetire (p : Plane) (s : State) : State := s.updRing p (fun g => g.retireTo (s.formRetire p))

/-- A due or load-begun report (R118): the frontier becomes the greater of its value and the serial. -/
def raiseFrontier (p : Plane) (serial : Nat) (s : State) : State :=
  s.updRing p (fun g => { g with frontier := max g.frontier serial })

/-- A release report of row `k` of head `h` on plane `p` (R119, R120): the row's release serial becomes the greater of its
value and the serial, an UNDERRUN counts, and a participating row's report forms the retire point again. -/
def release (h : Port) (k : RowIx) (p : Plane) (serial : Nat) (cause : ReleaseCause) (s : State) : State :=
  let s := s.updRow h k (fun r => { r with release := max r.release serial })
  let s := if cause = .underrun then bump (.underruns p) s else s
  if (s.participating p).contains (h, k) then reformRetire p s else s

/-- A lookup (R116): the ring position that holds a serial's line. -/
def Ring.lookup (g : Ring) (serial : Nat) : Option Nat := (g.entries.find? (fun e => e.serial == serial)).map (·.position)

/-- A ring after an accepted commit (R115). -/
def Ring.accept (g : Ring) (depth serial : Nat) : Ring :=
  { g with
    entries := g.entries ++ [⟨serial, g.writePosition⟩],
    writePosition := (g.writePosition + 1) % depth }

/-- The commit of a serial to one plane's ring (R115): accepted above the retire point, a late line otherwise. -/
def commitTo (serial : Nat) (p : Plane) (s : State) : State :=
  if (s.rings.get p).retire < (serial : Int) then s.updRing p (fun g => g.accept (s.memory.depth p) serial)
  else bump (.lateLines p) s

/-- The block at a ring's write position (R114). -/
def State.writeBlockOf (s : State) (p : Plane) : Nat := s.memory.ringBase p + (s.rings.get p).writePosition

/-- Whether a plane's ring holds as many lines as its depth (R104). -/
def State.ringFull (s : State) (p : Plane) : Bool := decide (s.memory.depth p ≤ (s.rings.get p).entries.length)

/-- A ring emptied on an entry to IDLE (R124). -/
def Ring.emptied : Ring := ⟨[], 0, -1, -1⟩

end Sys2Proof.Machine
end

