-- ==== Sys2Proof/Machine/Levels.lean ====
section
/-! DEFINITION. Machine/Levels.lean: which nozzle owns a column and which level each nozzle of a row is given (chapter 2). -/

namespace Sys2Proof.Machine

/-- R23: the covering nozzle of a head for a column: its row and its nozzle number. -/
def HeadRec.coveringNozzle (r : HeadRec) (c : Nat) : Nat × Nat := ((c - r.first) % r.rows, (c - r.first) / r.rows)

/-- R10: whether nozzle `n` of row `k` of head `h` on plane `p` is OUT for serial `serial`. -/
def State.outFor (s : State) (p : Plane) (serial : Nat) (h : Port) (k n : Nat) : Bool :=
  s.geo.statusFor p serial h k n == .out
    || (s.job.state != .idle && (match s.geo.offlineFrom.get h with | some f => decide (f ≤ serial) | none => false))
    || (s.job.state == .idle && (s.ports.get h).state == .offline)

/-- Whether head `h`'s covering nozzle of column `c` is OUT for a serial. -/
def State.coverOut (s : State) (p : Plane) (serial c : Nat) (h : Port) : Bool :=
  let kn := (s.geo.heads.get h).coveringNozzle c
  s.outFor p serial h kn.1 kn.2

/-- The seam entry that names two heads, in either order (R23). -/
def Geometry.seamOf (g : Geometry) (a b : Port) : Option SeamRec :=
  (allSeams.find? (fun e => (g.seams.get e).names a b)).map (fun e => g.seams.get e)

/-- R25: whether the pattern chooses the right head for overlap index `i` of a serial. -/
def SeamRec.choosesRight (e : SeamRec) (i serial : Nat) : Bool := e.pattern.getLsbD ((i + serial * e.shift) % 64)

/-- R25: the chosen head and the fallback head of an overlap column. -/
def Geometry.chosen (g : Geometry) (e : SeamRec) (left : Port) (serial c : Nat) : Port × Port :=
  if e.choosesRight (c - (g.heads.get e.right).first) serial then (e.right, left) else (left, e.right)

/-- The head that owns column `c` of plane `p` for a serial, if any (R24, R26). A column in no span, in three or more, or
in two that no seam entry joins has no owner; the Start Job checks leave no such column below the width (R17, R18). -/
def State.owner (s : State) (p : Plane) (serial c : Nat) : Option Port :=
  match s.geo.covering p c with
  | [h] => if s.coverOut p serial c h then none else some h
  | [a, b] =>
    match s.geo.seamOf a b with
    | some e =>
      match e.left with
      | some l =>
        let xy := s.geo.chosen e l serial c
        if s.coverOut p serial c xy.1 then (if s.coverOut p serial c xy.2 then none else some xy.2) else some xy.1
      | none => none
    | none => none
  | _ => none

/-- R28: a column below the width with no owner for a serial is dead for it. -/
def State.dead (s : State) (p : Plane) (serial c : Nat) : Bool :=
  decide (c < (s.geo.planes.get p).width) && (s.owner p serial c).isNone

/-- The plane's addition for a dead neighbour's level (R29). -/
def PlaneRec.addition (r : PlaneRec) (level : Nat) : Nat :=
  match level with
  | 0 => 0
  | 1 => r.add1
  | 2 => r.add2
  | _ => r.add3

/-- R29: what a neighbour column adds: the addition for its pixel when it is dead, and nothing otherwise. -/
def State.addedBy (s : State) (p : Plane) (serial : Nat) (pixel : Nat → Nat) (c : Nat) : Nat :=
  if s.dead p serial c then (s.geo.planes.get p).addition (pixel c) else 0

/-- R29: the level of the owner of column `c` whose status for the serial is `status`. -/
def State.ownerLevel (s : State) (p : Plane) (serial : Nat) (pixel : Nat → Nat) (c : Nat) (status : NozzleStatus) : Nat :=
  let below := if c = 0 then 0 else s.addedBy p serial pixel (c - 1)
  let sum := min 3 (pixel c + below + s.addedBy p serial pixel (c + 1))
  if status = .weak then min sum (s.geo.planes.get p).weakCap else sum

/-- R22: the level of nozzle `n` of row `k` of head `h` on plane `p` for a serial whose line holds `pixel`. -/
def State.nozzleLevel (s : State) (p : Plane) (serial : Nat) (pixel : Nat → Nat) (h : Port) (k : RowIx) (n : Nat) : Nat :=
  let c := (s.geo.heads.get h).column k n
  if (s.geo.planes.get p).width ≤ c then 0
  else if s.owner p serial c = some h then s.ownerLevel p serial pixel c (s.geo.statusFor p serial h k.val n)
  else 0

/-- R20: the loaded data of row `k` of head `h`: one level per nozzle, in nozzle order. -/
def State.loadedData (s : State) (p : Plane) (serial : Nat) (pixel : Nat → Nat) (h : Port) (k : RowIx) : List Nat :=
  (List.range (s.geo.heads.get h).nozzles).map (s.nozzleLevel p serial pixel h k)

/-- R80: whether a load of row `k` of head `h` reads word `w` of its line: the words of the columns below the width that
its nozzles reach, and of their neighbours in the plane. -/
def State.loadReads (s : State) (p : Plane) (h : Port) (k : RowIx) (w : Nat) : Bool :=
  let width := (s.geo.planes.get p).width
  (List.range (s.geo.heads.get h).nozzles).any fun n =>
    let c := (s.geo.heads.get h).column k n
    decide (c < width) && (c / 32 == w || (decide (0 < c) && (c - 1) / 32 == w) || (decide (c + 1 < width) && (c + 1) / 32 == w))

end Sys2Proof.Machine
end

