-- ==== Sys2Proof/Machine/Formats.lean ====
section
/-! DEFINITION. Machine/Formats.lean: the checks, frames, replies, notices and records the host sees, byte by byte (chapter 11). -/

namespace Sys2Proof.Machine

/-! ### Checks (R178) -/

/-- One bit of the CRC-8: polynomial x⁸ + x² + x + 1, the most significant bit first. -/
def crc8Bit (r : Byte) : Byte := if r.msb then (r <<< 1) ^^^ 0x07 else r <<< 1

/-- `k` bits of the CRC-8. -/
def crc8Bits : Nat → Byte → Byte
  | 0, r => r
  | k + 1, r => crc8Bits k (crc8Bit r)

/-- The header check of a run of bytes: initial value 00h, no final inversion. -/
def crc8 (bytes : List Byte) : Byte := bytes.foldl (fun r b => crc8Bits 8 (r ^^^ b)) 0

/-- One bit of the CRC-32 with polynomial 04C11DB7h taken least significant bit first (its reflection is EDB88320h). -/
def crc32Bit (r : BitVec 32) : BitVec 32 := if r.getLsbD 0 then (r >>> 1) ^^^ 0xEDB88320 else r >>> 1

/-- `k` bits of the CRC-32. -/
def crc32Bits : Nat → BitVec 32 → BitVec 32
  | 0, r => r
  | k + 1, r => crc32Bits k (crc32Bit r)

/-- The payload check of a run of bytes: initial value FFFFFFFFh, the result inverted. -/
def crc32 (bytes : List Byte) : BitVec 32 :=
  ~~~ (bytes.foldl (fun r b => crc32Bits 8 (r ^^^ b.setWidth 32)) 0xFFFFFFFF)

/-! ### Codes (sections 11.3 to 11.7) -/

/-- Result codes (section 11.4). -/
def Result.code : Result → Byte
  | .done => 0x00
  | .unknown => 0x01
  | .length => 0x02
  | .corrupt => 0x03
  | .range => 0x04
  | .state => 0x05
  | .held => 0x06
  | .full => 0x07
  | .space => 0x08
  | .inUse => 0x09
  | .pending => 0x0A
  | .check => 0x0B
  | .ahead => 0x0C

/-- Check detail codes (section 11.4). -/
def CheckDetail.code : CheckDetail → Nat
  | .noPlane => 1
  | .noHead => 2
  | .noMotion => 3
  | .noPlan => 4
  | .gap => 5
  | .triple => 6
  | .seam => 7
  | .depth => 8
  | .offline => 9

/-- Drop reason codes (section 11.4). -/
def DropReason.code : DropReason → Nat
  | .channel => 1
  | .payload => 2
  | .state => 3
  | .order => 4
  | .length => 5
  | .ahead => 6
  | .late => 7
  | .range => 8

/-- Channel state codes (section 11.4). -/
def ChannelState.code : ChannelState → Nat
  | .closed => 0
  | .waiting => 1
  | .pending => 2
  | .opened => 3
  | .draining => 4

/-- Port state codes (section 11.4). -/
def PortState.code : PortState → Nat
  | .unassigned => 0
  | .ready => 1
  | .offline => 2

/-- Job state codes (section 11.4). -/
def JobState.code : JobState → Nat
  | .idle => 0
  | .running => 1
  | .stopping => 2
  | .halted => 3

/-- JOB STATE causes with their port byte (section 11.5). -/
def JobCause.codes : JobCause → Nat × Nat
  | .start => (0, 0)
  | .stop => (1, 0)
  | .reverse => (2, 0)
  | .headFault h => (3, h.val)
  | .stopComplete => (4, 0)
  | .abort => (5, 0)
  | .restart => (6, 0)

/-- First halt cause with its port byte (section 11.7). -/
def HaltCause.codes : HaltCause → Nat × Nat
  | .none => (0, 0)
  | .reverse => (1, 0)
  | .headFault h => (2, h.val)

/-- Nozzle status codes (section 11.3). -/
def NozzleStatus.code : NozzleStatus → Byte
  | .live => 0
  | .weak => 1
  | .out => 2

/-- Template state codes (section 11.4). -/
def TemplateState.code : TemplateState → Byte
  | .free => 0
  | .filling => 1
  | .complete => 2

/-! ### Frames (section 11.1) -/

/-- A NOTICE payload (section 11.5): the kind byte and the body. -/
def Notice.payload (n : Notice) : List Byte :=
  BitVec.ofNat 8 n.kind :: match n with
  | .jobState st c => leBytes 1 st.code ++ leBytes 1 c.codes.1 ++ leBytes 1 c.codes.2
  | .headState h st => leBytes 1 h.val ++ leBytes 1 st.code
  | .channelState c st => leBytes 1 (c.val + 1) ++ leBytes 1 st.code
  | .templateComplete t => leBytes 1 t.val
  | .mapSwitched p => leBytes 1 p.val
  | .patchDropped (.patch plane copy line) r =>
      [0] ++ leBytes 1 r.code ++ [plane, 0] ++ leBytes 4 copy.toNat ++ leBytes 2 line.toNat
  | .patchDropped (.templateLine plane template line) r =>
      [1] ++ leBytes 1 r.code ++ [plane, template] ++ leBytes 4 0 ++ leBytes 2 line.toNat
  | .copyPrinted copy => leBytes 4 copy
  | .firstEvent c => leBytes 1 c.code ++ leBytes 1 c.index

/-- A REPLY payload (section 11.4): the request code, the result and the body. -/
def Reply.payload (r : Reply) : List Byte := [r.code, r.result.code] ++ r.body

/-- The bytes of a frame (section 11.1, R178): sync 5Ch, channel, kind, tag, length, header check, payload, and the
payload check when the payload is not empty. -/
def frameBytes (channel kind tag : Byte) (payload : List Byte) : List Byte :=
  let header := [0x5C, channel, kind, tag] ++ leBytes 2 payload.length
  header ++ [crc8 header] ++ payload ++ (if payload.isEmpty then [] else leBytes 4 (crc32 payload).toNat)

/-! ### Records (sections 11.6 and 11.7) -/

/-- The identity record (R181). -/
def identityRecord : List Byte :=
  leBytes 2 6212 ++ leBytes 1 1 ++ leBytes 1 12 ++ leBytes 1 4 ++ leBytes 2 Config.rowNozzles ++ leBytes 1 6
    ++ leBytes 2 Config.maxWidth ++ leBytes 4 Config.blocks ++ leBytes 2 Config.blockBytes ++ leBytes 1 16
    ++ leBytes 1 Config.pageEntries ++ leBytes 1 Config.placements ++ leBytes 1 16 ++ leBytes 4 100000

/-- A signed 6-byte field in two's complement (R177). -/
def leSigned6 (x : Int) : List Byte := leBytes 6 (BitVec.ofInt 48 x).toNat

/-- A flag as a bit of weight `w`. -/
def flagBit (b : Bool) (w : Nat) : Nat := if b then w else 0

/-- The Composer's wait reason (R104), STOPPED, WAIT_QUEUE, WAIT_MARK, WAIT_RING with a plane, or NONE. -/
inductive WaitReason where
  | none | stopped | waitQueue | waitMark
  | waitRing (plane : Plane)
  deriving DecidableEq, Repr

/-- Wait reason code and WAIT_RING plane (section 11.7). -/
def WaitReason.codes : WaitReason → Nat × Nat
  | .none => (0, 0)
  | .stopped => (1, 0)
  | .waitQueue => (2, 0)
  | .waitMark => (3, 0)
  | .waitRing p => (4, p.val)

end Sys2Proof.Machine
end

