-- ==== Sys2Proof/Machine/FeedLink.lean ====
section
/-! DEFINITION. Machine/FeedLink.lean: link states, frames received, credits, data channels, replies and the transmitter
(chapter 10). -/

namespace Sys2Proof.Machine

/-! ### Credits (R164) -/

/-- A data channel's slots in use (R96): the held slots whose index entry names it. A slot being written has no entry yet (R98).
DEDUCED, notes/assumptions/21.md. -/
def State.slotsInUse (s : State) (c : DataCh) : Nat := (s.pool.index.filter (fun e => e.channel == c)).length

/-- A data channel's frames awaiting handling (R163), the one whose write is in flight included: its handling ends
with the write (R87, R98). DEDUCED, notes/assumptions/8.md. -/
def State.framesAwaiting (s : State) (c : DataCh) : Nat :=
  (s.feed.awaiting.filter (fun f => f.channel == c)).length
    + (match s.templates.writing with | some w => if w.channel = c then 1 else 0 | none => 0)
    + (match s.pool.writing with | some w => if w.entry.channel = c then 1 else 0 | none => 0)

/-- A data channel's place among the channels 0 to 3 of the link. -/
def linkIx (c : DataCh) : Fin 4 := ⟨c.val + 1, by omega⟩

/-- Whether a data channel earns credit (R164). -/
def Feed.earns (f : Feed) (c : DataCh) : Bool :=
  match (f.channels.get c).state with
  | .opened => true
  | .pending => f.link == .up
  | _ => false

/-- The credit limit of a channel able to earn credit: received + capacity − held, modulo 65,536 (R164). -/
def limitFor (received : BitVec 16) (capacity held : Nat) : BitVec 16 :=
  received + BitVec.ofNat 16 capacity - BitVec.ofNat 16 held

/-- The limit of channel 0 (R164): it earns credit while the link is UP. -/
def refreshRequestLimit (s : State) : State :=
  if s.feed.link = .up then
    s.setFeed { s.feed with credit := s.feed.credit.upd 0 (fun k =>
      { k with limit := limitFor k.received Config.requestEntries s.feed.requests.length }) }
  else s

/-- The limit of a data channel (R164). -/
def refreshDataLimit (s : State) (c : DataCh) : State :=
  if s.feed.earns c then
    s.setFeed { s.feed with credit := s.feed.credit.upd (linkIx c) (fun k =>
      { k with limit := limitFor k.received (s.feed.channels.get c).quota (s.slotsInUse c + s.framesAwaiting c) }) }
  else s

/-- Every channel's limit as R164 gives it; a channel that earns no credit keeps the value it has. -/
def refreshLimits (s : State) : State := allDataCh.foldl refreshDataLimit (refreshRequestLimit s)

/-! ### The transmitter (R165, R174) -/

/-- The channels of the link in transmitter order. -/
def linkChannels : List (Fin 4) := [0, 1, 2, 3]

/-- The state of channel `c` of the link when it is a data channel. -/
def Feed.dataState (f : Feed) (c : Fin 4) : Option ChannelState :=
  if h : 1 ≤ c.val then some (f.channels.get ⟨c.val - 1, by omega⟩).state else none

/-- Whether a CREDIT frame is due for a channel (R165). -/
def Feed.creditDue (f : Feed) (c : Fin 4) : Bool :=
  let k := f.credit.get c
  match f.dataState c with
  | none => k.limit != k.announced
  | some .opened => k.limit != k.announced
  | some .pending => true
  | some _ => false

/-- R174: the frame the transmitter sends next. -/
def Feed.nextSending (f : Feed) : Option Sending :=
  match linkChannels.find? f.creditDue with
  | some c => some (.credit c (f.credit.get c).limit)
  | none =>
    match f.replies, f.notices with
    | [], [] => none
    | _ :: _, [] => some .reply
    | [], _ :: _ => some .notice
    | (i, _) :: _, (j, _) :: _ => if i < j then some .reply else some .notice

/-- A waiting transmitter makes its choice when an event is complete (R174). -/
def chooseSending (s : State) : State :=
  if s.feed.link = .up ∧ s.feed.sending = none then s.setFeed { s.feed with sending := s.feed.nextSending } else s

/-- What ends every event: credits returned show in the limits (R164), and a waiting transmitter chooses (R174). -/
def finish (s : State) : State := chooseSending (refreshLimits s)

/-- A command's outcome: its event, whole, where it can occur, and the state unchanged where it cannot (the condition
does not hold, or the RESET input is held, R159). DESIGN CHOICE, notes/assumptions/3.md. -/
def act (s : State) (can : Bool) (event : State → State) : Host.Outcome State Fault Refusal :=
  .next (if can && !s.resetHeld then finish (event s) else s)

/-- The bytes of the frame being sent (R178). -/
def Feed.sendingBytes (f : Feed) : List Byte :=
  match f.sending with
  | some (.credit c limit) => frameBytes (BitVec.ofNat 8 c.val) 0x83 0 (leBytes 2 limit.toNat)
  | some .reply => match f.replies with | (_, r) :: _ => frameBytes 0 0x81 r.tag r.payload | [] => []
  | some .notice => match f.notices with | (_, n) :: _ => frameBytes 0 0x82 0 n.payload | [] => []
  | none => []

/-! ### Data channels (R166 to R169) -/

/-- A data channel's state changed, with its CHANNEL STATE notice (R166). -/
def setChannelState (c : DataCh) (st : ChannelState) (s : State) : State :=
  placeNotice (.channelState c st) (s.setFeed { s.feed with channels := s.feed.channels.upd c (fun k => { k with state := st }) })

/-- Whether a channel holds a reservation (R166). -/
def ChannelState.reserves : ChannelState → Bool
  | .pending => true
  | .opened => true
  | .draining => true
  | _ => false

/-- The quotas reserved (R166). -/
def Feed.reserved (f : Feed) : Nat :=
  allDataCh.foldl (fun t c => if (f.channels.get c).state.reserves then t + (f.channels.get c).quota else t) 0

/-- The reservation order served from its head (R168): the channels that fit go to PENDING, and the first that does not
stays with those behind it. -/
def serveList : List DataCh → State → State
  | [], s => s.setFeed { s.feed with order := [] }
  | c :: rest, s =>
    if s.feed.reserved + (s.feed.channels.get c).quota ≤ s.memory.slots then serveList rest (setChannelState c .pending s)
    else s.setFeed { s.feed with order := c :: rest }

/-- R168: the reservation order is served. -/
def serveOrder (s : State) : State := serveList s.feed.order s

/-- Whether a channel has no slot in use and no frame awaiting handling (R169). -/
def State.channelEmpty (s : State) (c : DataCh) : Bool := s.slotsInUse c == 0 && s.framesAwaiting c == 0

/-- Whether a DRAINING channel can go to CLOSED (R169). -/
def State.drained (s : State) (c : DataCh) : Bool :=
  (s.feed.channels.get c).state == .draining && s.channelEmpty c

/-- R169: a drained channel goes to CLOSED, releases its reservation, and the order is served. -/
def closeDrained (c : DataCh) (s : State) : State := serveOrder (setChannelState c .closed s)

/-- R153, R154: every drained channel closes. Where several close at one IDLE entry, they close in channel order and the
reservation order is served after each. DESIGN CHOICE, notes/assumptions/30.md. -/
def closeAllDrained (s : State) : State := allDataCh.foldl (fun s c => if s.drained c then closeDrained c s else s) s

/-- A frame being received at a Restart: a data frame will not be handled (R89, R155); a request will. -/
def Incoming.discard (i : Incoming) : Incoming :=
  match i.kind with
  | .request => i
  | .patch _ => { i with discarded := true }
  | .templateLine _ => { i with discarded := true }

/-- R170: every data channel goes to CLOSED, reservations are released, the order is emptied, and the frames awaiting
handling are discarded, with a CHANNEL STATE notice for each channel whose state changed. R89, R155: a data frame half received is
not handled either. -/
def closeAllChannels (s : State) : State :=
  allDataCh.foldl (fun s c => if (s.feed.channels.get c).state = .closed then s else setChannelState c .closed s)
    (s.setFeed { s.feed with order := [], awaiting := [], incoming := s.feed.incoming.map Incoming.discard })

/-! ### Link states (R160, R161) -/

/-- R161 steps 1 to 3: the frame being received is discarded, the one being sent stays at the head of its queue (a CREDIT
is discarded), and limits, counts and last announced limits become 0. A new training attempt begins at once (R160). -/
def Feed.dropLink (f : Feed) (now : Nat) : Feed :=
  { f with
    link := .training, trainingStart := now, incoming := none, sending := none, credit := .all 4 ⟨0, 0, 0⟩ }

/-- R161: an entry to DOWN; step 4 takes each OPEN channel to PENDING with its notice, in channel order. -/
def linkDown (s : State) : State :=
  allDataCh.foldl (fun s c => if (s.feed.channels.get c).state = .opened then setChannelState c .pending s else s)
    (s.setFeed (s.feed.dropLink s.now))

/-- Whether a training attempt is running (R160): the part begins one at once on entering DOWN, so DOWN outside the
RESET input is an attempt about to begin. DEDUCED, notes/assumptions/12.md. -/
def State.trains (s : State) : Bool := s.feed.link != .up

/-- R160: word lock and the exchange of training sequences take the link UP. -/
def linkUp (s : State) : State := s.setFeed { s.feed with link := .up, incoming := none, sending := none }

/-! ### Receiving frames (R162, R163) -/

/-- The kind the host may send on a channel (R162 test 2), by the codes of section 11.1. -/
def hostKind (channel kind : Byte) : Option FrameKind :=
  match channel.toNat, kind.toNat with
  | 0, 1 => some .request
  | 1, 2 => some (.patch 0)
  | 2, 2 => some (.patch 1)
  | 3, 2 => some (.patch 2)
  | 1, 3 => some (.templateLine 0)
  | 2, 3 => some (.templateLine 1)
  | 3, 3 => some (.templateLine 2)
  | _, _ => none

/-- The data channel of a frame, if it is a data frame. -/
def FrameKind.channel : FrameKind → Option DataCh
  | .request => none
  | .patch c => some c
  | .templateLine c => some c

/-- The link channel of a frame. -/
def FrameKind.linkChannel (k : FrameKind) : Fin 4 := match k.channel with | some c => linkIx c | none => 0

/-- Whether frames of a data channel in a state are protocol errors (R162 test 4). -/
def ChannelState.refusesFrames : ChannelState → Bool
  | .closed => true
  | .waiting => true
  | .pending => true
  | _ => false

/-- What the header tests of R162 find. -/
inductive HeaderVerdict where
  | headerError
  | protocolError
  | passes (frame : Incoming)
  deriving DecidableEq, Repr

/-- The header tests of R162 in order. -/
def Feed.judgeHeader (f : Feed) (sync channel kind tag : Byte) (length : BitVec 16) (check : Byte) : HeaderVerdict :=
  if sync ≠ 0x5C ∨ check ≠ crc8 ([sync, channel, kind, tag] ++ leBytes 2 length.toNat) then .headerError
  else match hostKind channel kind with
    | none => .protocolError
    | some k =>
      if Config.maxPayload < length.toNat then .protocolError
      else if (match k.channel with | some c => (f.channels.get c).state.refusesFrames | none => false) then .protocolError
      else if (f.credit.get k.linkChannel).received = (f.credit.get k.linkChannel).limit then .protocolError
      else .passes ⟨k, tag, length.toNat, false⟩

/-- R162: the outcome of a header. -/
def headerReceived (v : HeaderVerdict) (s : State) : State :=
  match v with
  | .headerError => linkDown (bump .headerErrors s)
  | .protocolError => linkDown (bump .protocolErrors s)
  | .passes i => s.setFeed { s.feed with incoming := some i }

/-- R163: a received frame is counted and handed to its owner with the outcome of its payload check, also where a Close Channel has
closed its channel since its header passed. DESIGN CHOICE, notes/assumptions/22.md. A data frame that was in flight at a Restart is
counted (R162) and not handed on (R89, R155). -/
def Feed.receive (f : Feed) (i : Incoming) (payload : List Byte) (check : BitVec 32) : Feed :=
  let intact := payload.isEmpty || check == crc32 payload
  let f := { f with incoming := none, credit := f.credit.upd i.kind.linkChannel (fun k => { k with received := k.received + 1 }) }
  if i.discarded then f
  else match i.kind with
  | .request => { f with requests := f.requests ++ [⟨i.tag, payload, intact⟩] }
  | .patch c => { f with awaiting := f.awaiting ++ [⟨true, c, payload, intact⟩] }
  | .templateLine c => { f with awaiting := f.awaiting ++ [⟨false, c, payload, intact⟩] }

/-- The first frame of a kind and channel that awaits handling, taken out of the list (R97, R86). It may stand behind a frame of the
other kind, whose owner has not taken it. DESIGN CHOICE, notes/assumptions/31.md. -/
def takeFrame (isPatch : Bool) (c : DataCh) : List DataFrame → Option (DataFrame × List DataFrame)
  | [] => none
  | f :: fs =>
    if f.isPatch = isPatch ∧ f.channel = c then some (f, fs)
    else (takeFrame isPatch c fs).map (fun r => (r.1, f :: r.2))

/-! ### Frames sent (R165, R174) -/

/-- R165: a CREDIT frame sent whole sets the last announced limit and opens a PENDING channel. -/
def creditSent (c : Fin 4) (limit : BitVec 16) (s : State) : State :=
  let s := s.setFeed { s.feed with
    sent := s.feed.sendingBytes, sending := none, credit := s.feed.credit.upd c (fun k => { k with announced := limit }) }
  if h : 1 ≤ c.val then
    let d : DataCh := ⟨c.val - 1, by omega⟩
    if (s.feed.channels.get d).state = .pending then setChannelState d .opened s else s
  else s

/-- R174: a reply or notice sent whole leaves its queue. -/
def frameSent (s : State) : State :=
  match s.feed.sending with
  | some .reply => s.setFeed { s.feed with sent := s.feed.sendingBytes, sending := none, replies := s.feed.replies.drop 1 }
  | some .notice => s.setFeed { s.feed with sent := s.feed.sendingBytes, sending := none, notices := s.feed.notices.drop 1 }
  | _ => s

/-! ### Replies (R171) -/

/-- What an owner answers a request with: the result and the body (section 11.4). -/
structure Answer where
  result : Result
  body : List Byte
  deriving DecidableEq, Repr

/-- An answer with an empty body. -/
def Answer.plain (r : Result) : Answer := ⟨r, []⟩

/-- Whether the reply queue has a free entry (R171). -/
def State.replyRoom (s : State) : Bool := decide (s.feed.replies.length < Config.replyEntries)

/-- R171: the reply placed at the end of the reply queue. -/
def placeReply (tag code : Byte) (a : Answer) (s : State) : State :=
  s.setFeed { s.feed with
    replies := s.feed.replies ++ [(s.feed.placed, ⟨tag, code, a.result, a.body⟩)], placed := s.feed.placed + 1 }

end Sys2Proof.Machine
end

