-- ==== Sys2Proof/Machine/Operands.lean ====
section
/-! DEFINITION. Machine/Operands.lean: the values the fields of requests and data frames stand for, by the tables of section 11.3,
and the range tests of R180. A field outside its table stands for no value. -/

namespace Sys2Proof.Machine

/-- The number a byte holds when it is below `n`. -/
def numberBelow (n : Nat) (b : Byte) : Option (Fin n) := if h : b.toNat < n then some ⟨b.toNat, h⟩ else none

/-- A plane number. -/
def planeNumber (b : Byte) : Option Plane := numberBelow 6 b
/-- A port number. -/
def portNumber (b : Byte) : Option Port := numberBelow 12 b
/-- A template number. -/
def templateNumber (b : Byte) : Option TemplateIx := numberBelow 16 b
/-- A seam entry number. -/
def seamNumber (b : Byte) : Option SeamIx := numberBelow 16 b
/-- A product-detect input number. -/
def pdNumber (b : Byte) : Option PdIx := numberBelow 4 b

/-- A data channel number 1 to 3. -/
def channelNumber (b : Byte) : Option DataCh :=
  if h : 1 ≤ b.toNat ∧ b.toNat ≤ 3 then some ⟨b.toNat - 1, by omega⟩ else none

/-- A field that holds a number as coded or FFh for NONE. -/
def orNone {α : Type} (read : Byte → Option α) (b : Byte) : Option (Option α) :=
  if b = 0xFF then some none else (read b).map some

/-- A fault policy. -/
def policyOf (b : Byte) : Option FaultPolicy :=
  match b.toNat with
  | 0 => some .goOn
  | 1 => some .halt
  | _ => none

/-- A nozzle status. -/
def statusOf (b : Byte) : Option NozzleStatus :=
  match b.toNat with
  | 0 => some .live
  | 1 => some .weak
  | 2 => some .out
  | _ => none

/-- A list of nozzle statuses, when every byte of it is one. -/
def statusesOf : List Byte → Option (List NozzleStatus)
  | [] => some []
  | b :: bs =>
    match statusOf b, statusesOf bs with
    | some x, some xs => some (x :: xs)
    | _, _ => none

/-- A sense. -/
def senseOf (b : Byte) : Option Sense :=
  match b.toNat with
  | 0 => some .aLeads
  | 1 => some .bLeads
  | _ => none

/-- An edge selection. -/
def edgeOf (b : Byte) : Option EdgeSelect :=
  match b.toNat with
  | 0 => some .none
  | 1 => some .rising
  | 2 => some .falling
  | 3 => some .both
  | _ => none

/-- A trigger source. -/
def sourceOf (b : Byte) : Option Source :=
  match b.toNat with
  | 0 => some (.pd 0)
  | 1 => some (.pd 1)
  | 2 => some (.pd 2)
  | 3 => some (.pd 3)
  | 4 => some .continuous
  | _ => none

/-- A patched value. -/
def patchedOf (b : Byte) : Option Bool :=
  match b.toNat with
  | 0 => some false
  | 1 => some true
  | _ => none

/-- A keep-wet mode. -/
def keepWetModeOf (b : Byte) : Option KeepWetMode :=
  match b.toNat with
  | 0 => some .repeating
  | 1 => some .once
  | _ => none

/-- A patch mode. -/
def patchModeOf (b : Byte) : Option PatchMode :=
  match b.toNat with
  | 0 => some .replace
  | 1 => some .overlay
  | _ => none

/-- A ratio whose N is 1 to M and whose M is 1 to 16,777,215 (R36). -/
def ratioOf (n m : BitVec 24) : Option Ratio :=
  if 1 ≤ n.toNat ∧ n.toNat ≤ m.toNat then some ⟨n.toNat, m.toNat⟩ else none

/-- A plane set that is not empty and has bits 6 and 7 clear (R166, R180). -/
def planeSetOf (b : Byte) : Option (BitVec 6) := if 0 < b.toNat ∧ b.toNat < 64 then some (b.setWidth 6) else none

/-- A plane record whose fields lie in their ranges (R1, R2 test 1). -/
def planeRecOf (width : BitVec 16) (add1 add2 add3 weakCap : Byte) : Option PlaneRec :=
  if width.toNat ≤ Config.maxWidth ∧ add1.toNat ≤ 3 ∧ add2.toNat ≤ 3 ∧ add3.toNat ≤ 3 ∧ weakCap.toNat ≤ 3 then
    some ⟨width.toNat, add1.toNat, add2.toNat, add3.toNat, weakCap.toNat⟩
  else none

/-- The per-row fields of a head record: rows at or above the rows field are stored as 0 (R4). -/
def rowFields (rows : Nat) (v : Table 4 Nat) : Table 4 Nat := .ofFun fun k => if k.val < rows then v.get k else 0

/-- A head record whose fields lie in the ranges of R3 (R4); D and f of rows the head lacks are not tested. -/
def headRecOf (plane : Byte) (first : BitVec 16) (rows : Byte) (nozzles : BitVec 16) (d : Table 4 Nat) (f : Table 4 Nat)
    (window : BitVec 16) (policy : Byte) : Option HeadRec :=
  match orNone planeNumber plane, policyOf policy with
  | some p, some y =>
    if first.toNat < Config.maxWidth ∧ (1 ≤ rows.toNat ∧ rows.toNat ≤ 4)
        ∧ (8 ≤ nozzles.toNat ∧ nozzles.toNat ≤ Config.rowNozzles ∧ nozzles.toNat % 8 = 0)
        ∧ (∀ k : RowIx, k.val < rows.toNat → d.get k ≤ 60000) ∧ 100 ≤ window.toNat then
      some ⟨p, first.toNat, rows.toNat, nozzles.toNat, rowFields rows.toNat d, rowFields rows.toNat f, window.toNat, y⟩
    else none
  | _, _ => none

/-- A seam entry whose heads are ports and whose shift is 0 to 63 (R6). -/
def seamRecOf (left right shift : Byte) (pattern : BitVec 64) : Option SeamRec :=
  match orNone portNumber left, portNumber right with
  | some l, some r => if shift.toNat ≤ 63 then some ⟨l, r, shift.toNat, pattern⟩ else none
  | _, _ => none

/-- The ring depth 0 or 2 to 65,535 of R78. -/
def depthAllowed (d : Nat) : Bool := d != 1

/-- A memory plan whose fields lie in their ranges (R79 test 1). -/
def planOf (slots d0 d1 d2 d3 d4 d5 : BitVec 16) : Option Plan :=
  if slots.toNat ≠ 0 ∧ [d0, d1, d2, d3, d4, d5].all (fun d => depthAllowed d.toNat) then
    some ⟨slots.toNat, #v[d0.toNat, d1.toNat, d2.toNat, d3.toNat, d4.toNat, d5.toNat]⟩
  else none

/-! ### Data frames (section 11.2) -/

/-- A field of a data frame, 0 when the payload does not hold it whole (R97, R86). -/
def wholeField (p : List Byte) (off k : Nat) : Nat := if off + k ≤ p.length then field p off k else 0

/-- A pixel count field: 0 stands for 16,384 (R179). -/
def pixelCount (n : Nat) : Nat := if n = 0 then Config.maxWidth else n

/-- The payload length that matches a pixel count (R179). -/
def dataLength (fixed count : Nat) : Nat := fixed + (count + 3) / 4

/-- The fixed part of a patch (section 11.2). -/
structure PatchHeader where
  copy : Nat
  plane : Byte
  mode : Byte
  line : Nat
  first : Nat
  count : Nat
  deriving DecidableEq, Repr

/-- The fixed part a patch payload carries. -/
def patchHeaderOf (p : List Byte) : PatchHeader :=
  { copy := wholeField p 0 4, plane := .ofNat 8 (wholeField p 4 1), mode := .ofNat 8 (wholeField p 5 1),
    line := wholeField p 6 2, first := wholeField p 8 2, count := pixelCount (wholeField p 10 2) }

/-- The fixed part of a template line (section 11.2). -/
structure LineHeader where
  template : Byte
  plane : Byte
  line : Nat
  count : Nat
  deriving DecidableEq, Repr

/-- The fixed part a template-line payload carries. -/
def lineHeaderOf (p : List Byte) : LineHeader :=
  { template := .ofNat 8 (wholeField p 0 1), plane := .ofNat 8 (wholeField p 1 1), line := wholeField p 2 2,
    count := pixelCount (wholeField p 4 2) }

/-- Whether a data frame's plane lies in a channel's plane set. -/
def inPlaneSet (planes : BitVec 6) (plane : Byte) : Bool := planes.getLsbD plane.toNat

end Sys2Proof.Machine
end

