-- ==== Sys2Proof/Machine/Templates.lean ====
section
/-! DEFINITION. Machine/Templates.lean: template records, template space and template lines (chapter 5). -/

namespace Sys2Proof.Machine

/-- Whether any template is FILLING or COMPLETE. -/
def TemplateStore.anyDefined (t : TemplateStore) : Bool := allTemplates.any (fun i => (t.records.get i).state != .free)

/-- The rank of a plane among the configured planes, counting from 0 (R83). -/
def Geometry.rank (g : Geometry) (p : Plane) : Nat := (allPlanes.filter (fun q => g.configured q && decide (q.val < p.val))).length

/-- The block of line `line` of plane `p` of a template (R83). -/
def templateBlock (g : Geometry) (r : TemplateRec) (p : Plane) (line : Nat) : Nat := r.first + g.rank p * r.length + line

/-- R85 test 4: the first extent at least `size` long gives its low end; what is left of it stays. -/
def takeExtent (size : Nat) : List Extent → Option (Nat × List Extent)
  | [] => none
  | e :: es =>
    if size ≤ e.blocks then
      some (e.first, if e.blocks = size then es else ⟨e.first + size, e.blocks - size⟩ :: es)
    else (takeExtent size es).map (fun r => (r.1, e :: r.2))

/-- An extent joined to the front of an ordered list when the two touch (R90). -/
def joinFront (e : Extent) : List Extent → List Extent
  | [] => [e]
  | x :: xs => if e.first + e.blocks = x.first then ⟨e.first, e.blocks + x.blocks⟩ :: xs else e :: x :: xs

/-- R90: an extent returned to the free-extent list, in address order, joined to a neighbour on either side. -/
def giveExtent (e : Extent) : List Extent → List Extent
  | [] => [e]
  | x :: xs =>
    if e.first < x.first then joinFront e (x :: xs)
    else if x.first + x.blocks = e.first then joinFront ⟨x.first, x.blocks + e.blocks⟩ xs
    else x :: giveExtent e xs

/-! ### Requests of the Template Store -/

/-- The fill counts a Define Template STATE reply carries (section 11.4). -/
def fillBytes (g : Geometry) (r : TemplateRec) : List Byte :=
  allPlanes.flatMap (fun p => leBytes 2 (if g.configured p && r.state != .free then r.fill.get p else 0))

/-- R85: Define Template. -/
def ownDefineTemplate (template : Byte) (length : BitVec 16) (s : State) : State × Answer :=
  match templateNumber template with
  | none => (s, .plain .range)
  | some t =>
    if length.toNat = 0 then (s, .plain .range)
    else
      let r := s.templates.records.get t
      if r.state ≠ .free then (s, ⟨.state, [r.state.code] ++ fillBytes s.geo r⟩)
      else if s.geo.configuredPlanes.isEmpty then (s, ⟨.state, [r.state.code] ++ fillBytes s.geo r⟩)
      else
        let size := length.toNat * s.geo.configuredPlanes.length
        match takeExtent size s.templates.free with
        | none => (s, .plain .space)
        | some (first, rest) =>
          (s.setTemplates { s.templates with
              records := s.templates.records.put t ⟨.filling, length.toNat, first, size, .all 6 0⟩, free := rest },
            ⟨.done, leBytes 4 first ++ leBytes 4 size⟩)

/-- Whether any Page Queue entry names a template (R90). -/
def Composer.names (c : Composer) (t : TemplateIx) : Bool := c.pages.any (fun e => e.template == some t)

/-- R90: Drop Template. -/
def ownDropTemplate (template : Byte) (s : State) : State × Answer :=
  match templateNumber template with
  | none => (s, .plain .range)
  | some t =>
    let r := s.templates.records.get t
    if r.state = .free then (s, .plain .done)
    else if s.composer.names t then (s, .plain .inUse)
    else
      (s.setTemplates { s.templates with
          records := s.templates.records.put t .reset, free := giveExtent ⟨r.first, r.blocks⟩ s.templates.free },
        .plain .done)

/-- The whole template region of a plan as a free-extent list (R79, R84). -/
def Plan.freeList (q : Plan) : List Extent :=
  if q.templateBase < Config.blocks then [⟨q.templateBase, Config.blocks - q.templateBase⟩] else []

/-- R79: Set Memory Plan. -/
def ownSetMemoryPlan (slots d0 d1 d2 d3 d4 d5 : BitVec 16) (s : State) : State × Answer :=
  match planOf slots d0 d1 d2 d3 d4 d5 with
  | none => (s, .plain .range)
  | some q =>
    if s.job.state ≠ .idle then (s, .plain .held)
    else if s.templates.anyDefined || allDataCh.any (fun c => (s.feed.channels.get c).state != .closed) then (s, .plain .inUse)
    else if Config.blocks < q.templateBase then (s, .plain .space)
    else
      ((s.setMemory { s.memory with plan := some q }).setTemplates { s.templates with free := q.freeList },
        ⟨.done, leBytes 4 q.templateBase ++ leBytes 4 (Config.blocks - q.templateBase)⟩)

/-! ### Template lines (R86 to R88) -/

/-- The drop tests of R86 in order: the first that applies gives the reason. Test 4 catches any line of a plane whose fill count
has reached the length too, so a fill count stays at or below it (R83). -/
def lineDropReason (s : State) (f : DataFrame) : Option DropReason :=
  let ch := s.feed.channels.get f.channel
  let x := lineHeaderOf f.payload
  if f.payload.length < 6 then
    if ch.state ≠ .opened then some .channel else some .length
  else if ch.state ≠ .opened ∨ inPlaneSet ch.planes x.plane = false then some .channel
  else if f.intact = false then some .payload
  else
    match templateNumber x.template, planeNumber x.plane with
    | some t, some p =>
      let r := s.templates.records.get t
      if r.state ≠ .filling ∨ s.geo.configured p = false then some .state
      else if x.line ≠ r.fill.get p ∨ r.length ≤ r.fill.get p then some .order
      else if x.count ≠ (s.geo.planes.get p).width ∨ f.payload.length ≠ dataLength 6 x.count then some .length
      else none
    | _, _ => some .state

/-- R88: a dropped template line counts and places PATCH DROPPED with the fields as received. -/
def dropLine (f : DataFrame) (reason : DropReason) (s : State) : State :=
  let x := lineHeaderOf f.payload
  placeNotice (.patchDropped (.templateLine x.plane x.template (.ofNat 16 x.line)) reason) (bump .templateLinesDropped s)

/-- R87 step 1: the write of an accepted template line begins: pixels 0 to width − 1 from the frame, the rest level 0. -/
def beginLineWrite (f : DataFrame) (s : State) : State :=
  let x := lineHeaderOf f.payload
  match templateNumber x.template, planeNumber x.plane with
  | some t, some p =>
    s.setTemplates { s.templates with
      writing := some ⟨f.channel, t, p, templateBlock s.geo (s.templates.records.get t) p x.line,
        packPixels x.count (areaPixel (f.payload.drop 6))⟩ }
  | _, _ => s

/-- R86: the Template Store takes the frame and judges it. -/
def takeTemplateLine (f : DataFrame) (rest : List DataFrame) (s : State) : State :=
  let s := s.setFeed { s.feed with awaiting := rest }
  match lineDropReason s f with
  | some r => dropLine f r s
  | none => beginLineWrite f s

/-- Whether every configured plane's fill count equals the length (R87 step 4). -/
def TemplateRec.full (r : TemplateRec) (g : Geometry) : Bool := g.configuredPlanes.all (fun p => r.fill.get p == r.length)

/-- R87 steps 1 to 4: the block is written, the fill count rises, and a template whose planes are all full becomes COMPLETE. -/
def finishLineWrite (w : TemplateWrite) (s : State) : State :=
  let r := s.templates.records.get w.template
  let r := { r with fill := r.fill.upd w.plane (· + 1) }
  let complete := r.full s.geo
  let r := if complete then { r with state := .complete } else r
  let s := s.setMemory (s.memory.writeBlock w.block w.pixels)
  let s := s.setTemplates { s.templates with records := s.templates.records.put w.template r, writing := none }
  if complete then placeNotice (.templateComplete w.template) s else s

end Sys2Proof.Machine
end

