-- ==== Sys2Proof/Machine/Composer.lean ====
section
/-! DEFINITION. Machine/Composer.lean: the Page Queue, the Patch Pool, the mark table and the composition of lines (chapter 6). -/

namespace Sys2Proof.Machine

/-! ### Copies and the mark table -/

/-- Whether a page entry holds a copy sequence (R92). -/
def PageEntry.holds (e : PageEntry) (copy : Nat) : Bool := decide (e.first ≤ copy ∧ copy < e.first + e.copies)

/-- The queued entry of a copy (R92). -/
def Composer.entryOf (c : Composer) (copy : Nat) : Option PageEntry := c.pages.find? (fun e => e.holds copy)

/-- The base serial of a copy of an entry (R92). -/
def PageEntry.baseOf (e : PageEntry) (copy : Nat) : Nat := e.base + (copy - e.first) * e.length

/-- The mark table entry a copy joins with (R102). -/
def freshMark (copy : Nat) (e : PageEntry) : MarkEntry := ⟨copy, if e.patched then 0 else e.length, 0⟩

/-- The mark table entry of a copy. -/
def Composer.markOf (c : Composer) (copy : Nat) : Option MarkEntry := c.marks.find? (fun m => m.copy == copy)

/-- The mark table of the copy window (R102): the entries of the queued copies in it, in copy sequence order; a copy that
has none joins. -/
def Composer.windowMarks (c : Composer) : List MarkEntry :=
  (List.range (Config.windowAhead + 1)).filterMap fun i =>
    match c.markOf (c.copy + i) with
    | some m => some m
    | none => (c.entryOf (c.copy + i)).map (freshMark (c.copy + i))

/-- The Composer with its mark table brought to the copy window. -/
def Composer.slide (c : Composer) : Composer := { c with marks := c.windowMarks }

/-- The Composer with the mark of a copy changed. -/
def Composer.updMark (c : Composer) (copy : Nat) (f : MarkEntry → MarkEntry) : Composer :=
  { c with marks := c.marks.map (fun m => if m.copy = copy then f m else m) }

/-- Whether a line of a copy has been begun (R101). -/
def Composer.begun (c : Composer) (copy line : Nat) : Bool :=
  decide (copy < c.copy) || (copy == c.copy && (decide (line < c.line) || (line == c.line && c.flight.isSome)))

/-- The page length of a queued copy, 0 when the copy is not queued. -/
def Composer.lengthOf (c : Composer) (copy : Nat) : Nat :=
  match c.entryOf copy with | some e => e.length | none => 0

/-! ### Requests of the Composer -/

/-- R93 test 4: a page may name a COMPLETE template, or none. -/
def TemplateStore.usable (t : TemplateStore) : Option TemplateIx → Bool
  | some i => (t.records.get i).state == .complete
  | none => true

/-- R93, R94: Queue Page. -/
def ownQueuePage (template : Byte) (copies length gap top : BitVec 16) (source patched : Byte) (s : State) : State × Answer :=
  match orNone templateNumber template, sourceOf source, patchedOf patched with
  | some t, some src, some pat =>
    let c := s.composer
    if copies.toNat = 0 ∨ length.toNat = 0 then (s, .plain .range)
    else if s.job.state = .stopping ∨ s.job.state = .halted then (s, .plain .state)
    else if Config.pageEntries ≤ c.pages.length then (s, .plain .full)
    else if s.templates.usable t = false then (s, .plain .state)
    else if Config.maxSequence < c.nextSequence + copies.toNat
        ∨ Config.maxSerial < c.nextSerial + copies.toNat * length.toNat then (s, .plain .range)
    else
      let e : PageEntry := ⟨c.nextSequence, copies.toNat, c.nextSerial, length.toNat, gap.toNat, top.toNat, src, t, pat⟩
      (s.setComposer (Composer.slide { c with
          pages := c.pages ++ [e], nextSequence := c.nextSequence + copies.toNat,
          nextSerial := c.nextSerial + copies.toNat * length.toNat }),
        ⟨.done, leBytes 4 e.first ++ leBytes 6 e.base⟩)
  | _, _, _ => (s, .plain .range)

/-- The body of a Mark DONE reply (section 11.4). -/
def markBody (composed : Bool) (mark count : Nat) : List Byte :=
  leBytes 1 (if composed then 1 else 0) ++ leBytes 2 mark ++ leBytes 4 count

/-- R103: Mark. -/
def ownMark (copy : BitVec 32) (value : BitVec 16) (s : State) : State × Answer :=
  let c := s.composer
  if c.nextSequence ≤ copy.toNat ∨ c.copy + Config.windowAhead < copy.toNat then (s, .plain .ahead)
  else if copy.toNat < c.copy then (s, ⟨.done, markBody true 0 0⟩)
  else if c.lengthOf copy.toNat < value.toNat then (s, .plain .range)
  else
    let c := c.updMark copy.toNat (fun m => { m with mark := max m.mark value.toNat })
    (s.setComposer c,
      match c.markOf copy.toNat with
      | some m => ⟨.done, markBody false m.mark m.accepted.toNat⟩
      | none => ⟨.done, markBody false 0 0⟩)

/-! ### The Patch Pool (R96 to R99) -/

/-- The held slots (R96): those of the index entries, and the one whose accepted patch is still being written. -/
def PatchPool.heldSlots (q : PatchPool) : List Nat :=
  q.index.map (·.slot) ++ (match q.writing with | some w => [w.entry.slot] | none => [])

/-- Whether a slot is held (R96). -/
def PatchPool.held (q : PatchPool) (slot : Nat) : Bool := q.heldSlots.contains slot

/-- The lowest-numbered free slot (R96). -/
def State.freeSlot (s : State) : Option Nat := (List.range s.memory.slots).find? (fun j => !s.pool.held j)

/-- Whether index entry `a` stands before or beside entry `b` in the order of the index: by copy, plane and line, so that
each (copy, plane) list is ordered by line (R96). -/
def PatchEntry.le (a b : PatchEntry) : Bool :=
  decide (a.copy < b.copy) || (a.copy == b.copy && (decide (a.plane.val < b.plane.val)
    || (a.plane == b.plane && decide (a.line ≤ b.line))))

/-- R98 step 3: an index entry placed after every entry of a lower line and every earlier entry of the same line. -/
def insertPatch (e : PatchEntry) : List PatchEntry → List PatchEntry
  | [] => [e]
  | x :: xs => if x.le e then x :: insertPatch e xs else e :: x :: xs

/-- The drop tests of R97 in order: the first that applies gives the reason. A pixel count of 16,385 to 16,400 with a payload of its
length passes test 3, and the patch is clipped. DESIGN CHOICE, notes/assumptions/32.md. -/
def patchDropReason (s : State) (f : DataFrame) : Option DropReason :=
  let ch := s.feed.channels.get f.channel
  let x := patchHeaderOf f.payload
  let c := s.composer
  if f.payload.length < 12 then
    if ch.state ≠ .opened then some .channel else some .length
  else if ch.state ≠ .opened ∨ inPlaneSet ch.planes x.plane = false then some .channel
  else if f.intact = false then some .payload
  else if f.payload.length ≠ dataLength 12 x.count then some .length
  else if c.nextSequence ≤ x.copy ∨ c.copy + Config.windowAhead < x.copy then some .ahead
  else if x.copy < c.copy ∨ c.begun x.copy x.line then some .late
  else
    match c.entryOf x.copy, planeNumber x.plane, patchModeOf x.mode with
    | some e, some p, some _ =>
      if e.length ≤ x.line ∨ s.geo.configured p = false ∨ Config.maxWidth ≤ x.first
          ∨ (s.geo.planes.get p).width ≤ x.first then some .range
      else if e.patched = false then some .range
      else none
    | _, _, _ => some .range

/-- R99: a dropped patch counts and places PATCH DROPPED with the fields as received. -/
def dropPatch (f : DataFrame) (reason : DropReason) (s : State) : State :=
  let x := patchHeaderOf f.payload
  placeNotice (.patchDropped (.patch x.plane (.ofNat 32 x.copy) (.ofNat 16 x.line)) reason) (bump .patchesDropped s)

/-- The bytes a patch's slot takes (R98 step 2): slot pixel `c` holds the patch's pixel for column `c`, all others level 0. -/
def slotBytes (first count : Nat) (area : List Byte) : List Byte :=
  packPixels (first + count) (fun c => if first ≤ c then areaPixel area (c - first) else 0)

/-- R98 steps 1 and 2: an accepted patch is clipped to the width, takes a slot, and its write begins. -/
def beginPatchWrite (f : DataFrame) (slot : Nat) (s : State) : State :=
  let x := patchHeaderOf f.payload
  match planeNumber x.plane, patchModeOf x.mode with
  | some p, some m =>
    let width := (s.geo.planes.get p).width
    let count := min x.count (width - x.first)
    let s := if count < x.count then bump .patchesClipped s else s
    s.setPool { s.pool with
      writing := some ⟨⟨x.copy, p, x.line, x.first, count, m, slot, f.channel⟩,
        slotBytes x.first count (f.payload.drop 12)⟩ }
  | _, _ => s

/-- R97: the Patch Pool takes the frame and judges it. -/
def takePatch (f : DataFrame) (rest : List DataFrame) (s : State) : State :=
  let t := s.setFeed { s.feed with awaiting := rest }
  match patchDropReason t f with
  | some r => dropPatch f r t
  | none =>
    match t.freeSlot with
    | some slot => beginPatchWrite f slot t
    | none => s

/-- R98: the slot's write completes; the index entry, the slot use and the accepted-patch count stand. -/
def finishPatchWrite (w : PatchWrite) (s : State) : State :=
  let s := s.setMemory (s.memory.writeBlock w.entry.slot w.pixels)
  let s := s.setPool { s.pool with index := insertPatch w.entry s.pool.index, writing := none }
  s.setComposer (s.composer.updMark w.entry.copy (fun m => { m with accepted := saturatingInc m.accepted }))

/-! ### Composition (R104 to R109) -/

/-- The test of R104 in RUNNING with no composition in flight: the first condition that holds. -/
def State.composeBlock (s : State) : WaitReason :=
  let c := s.composer
  if (c.entryOf c.copy).isNone then .waitQueue
  else if (match c.markOf c.copy with | some m => decide (m.mark ≤ c.line) | none => true) then .waitMark
  else match s.geo.configuredPlanes.find? s.ringFull with
    | some p => .waitRing p
    | none => .none

/-- The Composer's wait reason (R104). In RUNNING with nothing in flight and none of R104's conditions it is NONE: the line waits for
its own patch write or for COMPOSE_BEGIN. DESIGN CHOICE, notes/assumptions/28.md. -/
def State.waitReason (s : State) : WaitReason :=
  if s.job.state ≠ .running then .stopped
  else if s.composer.flight.isSome then .none
  else s.composeBlock

/-- Whether the patch being written is for the compose line: the pool takes a frame whole (R97, R100), so the line begins
after its outcome. DEDUCED, notes/assumptions/9.md. -/
def State.composeLineBusy (s : State) : Bool :=
  match s.pool.writing with
  | some w => w.entry.copy == s.composer.copy && w.entry.line == s.composer.line
  | none => false

/-- Whether the compose line can begin (R105). -/
def State.canCompose (s : State) : Bool :=
  s.job.state == .running && s.composer.flight.isNone && s.composeBlock == .none && !s.composeLineBusy

/-- R105: the line begins: the configured planes, the block at each write position (R114), and the patches of the line. -/
def beginLine (s : State) : State :=
  let c := s.composer
  s.setComposer { c with
    flight := some ⟨s.geo.configuredPlanes.map (fun p => (p, s.writeBlockOf p)),
      s.pool.index.filter (fun e => e.copy == c.copy && e.line == c.line && s.geo.configured e.plane)⟩ }

/-- The template line a composition reads for plane `p`, if the copy's entry names a template long enough (R106 step 1). -/
def State.baseBlock (s : State) (p : Plane) : Option Nat :=
  match s.composer.entryOf s.composer.copy with
  | some e =>
    match e.template with
    | some t =>
      let r := s.templates.records.get t
      if s.composer.line < r.length then some (templateBlock s.geo r p s.composer.line) else none
    | none => none
  | none => none

/-- One patch laid over a pixel of the line (R106 step 2). -/
def applyPatch (m : FrameMemory) (c : Nat) (v : Nat) (e : PatchEntry) : Nat :=
  if e.first ≤ c ∧ c < e.first + e.count then
    match e.mode with
    | .replace => m.pixel e.slot c
    | .overlay => max v (m.pixel e.slot c)
  else v

/-- The composed pixel of column `c` of plane `p` (R106 steps 1 and 2). -/
def State.composedPixel (s : State) (f : Composition) (p : Plane) (c : Nat) : Nat :=
  (f.patches.filter (fun e => e.plane == p)).foldl (applyPatch s.memory c)
    (match s.baseBlock p with | some b => s.memory.pixel b c | none => 0)

/-- The words the composition of plane `p` reads, counted (R80, R106): every word of the template line and of each patch
slot it uses. -/
def countComposeReads (f : Composition) (p : Plane) (s : State) : State :=
  let s := match s.baseBlock p with | some b => countReads b (fun _ => true) s | none => s
  (f.patches.filter (fun e => e.plane == p)).foldl (fun s e => countReads e.slot (fun _ => true) s) s

/-- R106 step 3: the composed line of plane `p` written to its ring block. The width alone masks a stored pixel: where a width was
lowered and raised again, the stored levels are delivered. DESIGN CHOICE, notes/assumptions/27.md. -/
def writeLine (f : Composition) (s : State) (t : Plane × Nat) : State :=
  let s := countComposeReads f t.1 s
  s.setMemory (s.memory.writeBlock t.2 (packPixels (s.geo.planes.get t.1).width (s.composedPixel f t.1)))

/-- R107 steps 2 and 3: the compose position after the commit of its line. -/
def Composer.advance (c : Composer) : Composer :=
  if c.line + 1 < c.lengthOf c.copy then { c with line := c.line + 1, flight := none }
  else Composer.slide { c with copy := c.copy + 1, line := 0, flight := none }

/-- The serial of the compose line (R92). -/
def Composer.serial (c : Composer) : Nat :=
  (match c.entryOf c.copy with | some e => e.baseOf c.copy | none => 0) + c.line

/-- R107: the lines are written and committed to every plane as one event, the slots of the patches applied are freed, and
the compose position moves. The words in error are counted first, and then the late lines (R115), each plane by plane. DESIGN CHOICE,
notes/assumptions/13.md. -/
def completeComposition (f : Composition) (s : State) : State :=
  let s := f.targets.foldl (writeLine f) s
  let s := f.targets.foldl (fun s t => commitTo s.composer.serial t.1 s) s
  let s := s.setPool { s.pool with index := s.pool.index.filter (fun e => !f.patches.any (fun x => x.slot == e.slot)) }
  s.setComposer s.composer.advance

/-- R109: the Composer stops: a composition in flight is abandoned, its patches stay held. -/
def stopComposer (s : State) : State := s.setComposer { s.composer with flight := none }

/-- R95: the entry whose last copy has retired leaves the Page Queue. -/
def Composer.dropRetired (c : Composer) (copy : Nat) : Composer :=
  match c.pages with
  | e :: rest => if e.first + e.copies = copy + 1 then { c with pages := rest } else c
  | [] => c

/-- R108: copies up to `copy` are skipped: the composition in flight is abandoned, their patches are freed, and the compose
position moves past them. A patch of theirs being written is given up with them (DEDUCED, notes/assumptions/9.md). -/
def skipCopies (copy : Nat) (s : State) : State :=
  let c := s.composer
  if c.copy ≤ copy then
    (s.setPool
        { index := s.pool.index.filter (fun e => decide (copy < e.copy)),
          writing := s.pool.writing.filter (fun w => decide (copy < w.entry.copy)) }).setComposer
      (Composer.slide { c with copy := copy + 1, line := 0, flight := none })
  else s

/-- What the Composer does when a copy's placement retires (R95, R108). -/
def copyRetired (copy : Nat) (s : State) : State :=
  skipCopies copy (s.setComposer (s.composer.dropRetired copy))

/-- R110: the Composer and the Patch Pool cleared on an entry to IDLE. -/
def clearComposer (s : State) : State := (s.setComposer .reset).setPool .reset

end Sys2Proof.Machine
end

