-- ==== Sys2Proof/Machine/Inputs.lean ====
section
/-! DEFINITION. Machine/Inputs.lean: the input filters of the encoder and the product-detect inputs (R38, R39, R60). -/

namespace Sys2Proof.Machine

/-- One sample of an input at a filter setting of `setting` ticks (R38, R60): a sample equal to the accepted level ends any
hold; one that differs starts a hold or continues it. The hold has reached the setting when every sample from its
first tick `t` to `t + setting` showed the new level. -/
def InputFilter.sample (x : InputFilter) (setting : Nat) (pin : Bool) : InputFilter :=
  if pin = x.level then { x with hold := none, reached := false }
  else
    let k := match x.hold with | some k => k + 1 | none => 0
    { x with hold := some k, reached := decide (setting ≤ k) }

/-- The filter once the new level is accepted. -/
def InputFilter.accept (x : InputFilter) : InputFilter := ⟨!x.level, none, false⟩

/-- The filter once its setting is changed (R39, R60): a hold in progress is compared from then on with the new setting, so one
that had reached the old setting alone is no longer at its end; one that has reached a lower new setting ends at the
next tick's sample. Where that sample is back at the accepted level it clears the hold, as R38 and R60 have every such sample do,
though R39 and R60 have the new level accepted at that tick. DESIGN CHOICE, notes/assumptions/26.md. -/
def InputFilter.refilter (x : InputFilter) (setting : Nat) : InputFilter :=
  { x with reached := x.reached && decide (setting ≤ x.hold.getD 0) }

/-- The filter after the first sample since power-on: its level is the accepted level (R39, R60). -/
def InputFilter.first (pin : Bool) : InputFilter := ⟨pin, none, false⟩

end Sys2Proof.Machine
end

