-- ==== Sys2Proof/Machine/Placements.lean ====
section
/-! DEFINITION. Machine/Placements.lean: product edges, placements, the due line and retirement (chapter 4). -/

namespace Sys2Proof.Machine

/-- R62: the next unplaced copy: the queued entry that holds the next placement sequence. -/
def State.nextUnplaced (s : State) : Option PageEntry := s.composer.entryOf s.place.nextSequence

/-- R64 steps 1 to 3: a placement of the next unplaced copy at `start`. -/
def PlacementUnit.append (u : PlacementUnit) (e : PageEntry) (start : Int) : PlacementUnit :=
  { u with
    list := u.list ++ [⟨u.nextSequence, start, e.length, e.gap, e.baseOf u.nextSequence⟩],
    floor := start + e.length + e.gap,
    nextSequence := u.nextSequence + 1 }

/-- R65: the lockout of an input started at high-water mark `h`. -/
def PlacementUnit.startLockout (u : PlacementUnit) (i : PdIx) (h : Int) : PlacementUnit :=
  { u with triggers := u.triggers.upd i (fun t => { t with lockoutEnd := h + t.lockout }) }

/-- The outcomes of the edge tests (R63). -/
inductive EdgeOutcome where
  | ignored | reTravel | lockedOut | missed | early
  | place (e : PageEntry) (start : Int)
  deriving DecidableEq, Repr

/-- R63: the tests of an accepted edge of input `i` in order. -/
def State.judgeEdge (s : State) (i : PdIx) : EdgeOutcome :=
  let h := s.motion.h
  if s.job.state = .idle ∨ s.job.state = .halted then .ignored
  else if s.motion.p < h then .reTravel
  else if h < (s.place.triggers.get i).lockoutEnd then .lockedOut
  else
    match s.nextUnplaced with
    | none => .missed
    | some e =>
      if e.source ≠ .pd i then .ignored
      else if s.job.state = .stopping then .missed
      else if Config.placements ≤ s.place.list.length then .missed
      else if h + 1 + e.top < s.place.floor then .early
      else .place e (h + 1 + e.top)

/-- R63 to R65: what an accepted edge does. -/
def offerEdge (i : PdIx) (s : State) : State :=
  match s.judgeEdge i with
  | .ignored => s
  | .reTravel => bump .reTravelEdges s
  | .lockedOut => bump .lockoutEdges s
  | .missed => (bump .missedProducts s).setPlace (s.place.startLockout i s.motion.h)
  | .early => (bump .earlyTriggers s).setPlace (s.place.startLockout i s.motion.h)
  | .place e start => s.setPlace ((s.place.append e start).startLockout i s.motion.h)

/-- Whether an edge setting selects a change to `level` (R58). -/
def EdgeSelect.selects : EdgeSelect → Bool → Bool
  | .none, _ => false
  | .rising, level => level
  | .falling, level => !level
  | .both, _ => true

/-- R60: the filter of an input accepts the new level, and a selected edge is offered to the tests. -/
def pdAccept (i : PdIx) (s : State) : State :=
  let t := s.place.triggers.get i
  let s := s.setPlace { s.place with triggers := s.place.triggers.upd i (fun t => { t with input := t.input.accept }) }
  if t.edge.selects (!t.input.level) then offerEdge i s else s

/-- R67: whether the list is empty or H has reached the start of its last placement. -/
def PlacementUnit.lastReached (u : PlacementUnit) (h : Int) : Bool :=
  match u.list.getLast? with
  | some l => decide (l.start ≤ h)
  | none => true

/-- R67: the entry a continuous placement would place, when its conditions hold. -/
def State.continuousEntry (s : State) : Option PageEntry :=
  match s.nextUnplaced with
  | none => none
  | some e =>
    if s.job.state = .running ∧ e.source = .continuous ∧ s.place.list.length < Config.placements
        ∧ s.place.lastReached s.motion.h then some e
    else none

/-- R67: the continuous placement, at the greater of the floor and H + 1. -/
def placeContinuous (s : State) : State :=
  match s.continuousEntry with
  | some e => s.setPlace (s.place.append e (max s.place.floor (s.motion.h + 1)))
  | none => s

/-- R69: the serial due at web position `x`, if a placement covers it. -/
def dueAt (list : List Placement) (x : Int) : Option Nat :=
  (list.find? (fun q => decide (q.start ≤ x ∧ x < q.start + q.length))).map (fun q => q.base + (x - q.start).toNat)

/-- R71: whether the first placement retires at high-water mark `h`. -/
def PlacementUnit.retiring (u : PlacementUnit) (h : Int) : Option Placement :=
  match u.list with
  | q :: _ => if q.start + q.length + u.dMax ≤ h then some q else none
  | [] => none

/-- R72 steps 1 to 4: a retirement. -/
def retirePlacement (q : Placement) (s : State) : State :=
  let s := s.setPlace { s.place with list := s.place.list.drop 1 }
  copyRetired q.copy (placeNotice (.copyPrinted q.copy) (bump .copiesPrinted s))

/-- What the Placement Unit does at a print tick (R71, R73). -/
def placementTick (s : State) : State :=
  if s.job.state = .running ∨ s.job.state = .stopping then
    match s.place.retiring s.motion.h with
    | some q => retirePlacement q s
    | none => s
  else s

/-- R59: the settings of an input replaced; a hold in progress is compared with the new filter setting (R60). -/
def Trigger.configure (t : Trigger) (edge : EdgeSelect) (filter lockout : Nat) : Trigger :=
  { t with
    edge := edge, filter := filter, lockout := lockout,
    input := t.input.refilter (filter * Config.ticksPerMicrosecond) }

/-- R59: Set Trigger. -/
def ownSetTrigger (input edge filter : Byte) (lockout : BitVec 16) (s : State) : State × Answer :=
  match pdNumber input, edgeOf edge with
  | some i, some e =>
    if s.job.state ≠ .idle then (s, .plain .held)
    else
      (s.setPlace { s.place with
          triggers := s.place.triggers.upd i (fun t => t.configure e filter.toNat lockout.toNat) },
        .plain .done)
  | _, _ => (s, .plain .range)

end Sys2Proof.Machine
end

