-- ==== Sys2Proof/Machine/HeadPorts.lean ====
section
/-! DEFINITION. Machine/HeadPorts.lean: port states, row engines, the load arbiter, fires and keep-wet (chapter 8). -/

namespace Sys2Proof.Machine

/-- Whether a port has working row engines: READY with its head in use (R126). -/
def State.working (s : State) (h : Port) : Bool := (s.ports.get h).state == .ready && (s.geo.inUse h)

/-- Whether a row is QUIET. -/
def Row.quiet (r : Row) : Bool := r.window.isNone

/-- A row with no pending line (R130). -/
def Row.emptied (r : Row) : Row := { r with load := .empty, line := none, due := none }

/-- R139: a window of `w` ticks started at `now`; a later end replaces a running one. -/
def Row.startWindow (r : Row) (now w : Nat) : Row :=
  { r with window := some (match r.window with | some e => max e (now + w) | none => now + w) }

/-! ### The keep-wet timer (R142) -/

/-- R142: the timer restarted at `now`. -/
def KeepWet.restart (k : KeepWet) (now : Nat) : KeepWet :=
  { k with start := now, deferred := false, armed := decide (0 < k.interval) }

/-- R142: the timer of a port that leaves READY. -/
def KeepWet.disarm (k : KeepWet) : KeepWet := { k with armed := false, deferred := false }

/-- Whether an armed timer has expired (R142); a deferred pulse has expired already. -/
def KeepWet.expired (k : KeepWet) (now : Nat) : Bool :=
  k.armed && !k.deferred && decide (k.start + k.interval * Config.keepWetUnit ≤ now)

/-- R144: the two conditions of a pulse: every row of the head QUIET, and none with a due pending line. -/
def State.pulseAllowed (s : State) (h : Port) : Bool :=
  (s.rowsOf h).all (fun k => (s.row h k).quiet && (s.row h k).due.isNone)

/-- R145: a keep-wet pulse. -/
def keepWetPulse (h : Port) (s : State) : State :=
  let w := (s.geo.heads.get h).window
  let s := (s.rowsOf h).foldl (fun s k => s.updRow h k (fun r => r.startWindow s.now w)) s
  let s := s.updPort h (fun p => { p with keepWet := match p.keepWet.mode with
    | .repeating => p.keepWet.restart s.now
    | .once => p.keepWet.disarm })
  bump (.keepWetPulses h) s

/-- R144: an expired timer issues its pulse or defers it. -/
def keepWetExpire (h : Port) (s : State) : State :=
  if s.pulseAllowed h then keepWetPulse h s
  else s.updPort h (fun p => { p with keepWet := { p.keepWet with deferred := true } })

/-- R143: Set Keep-wet. -/
def ownSetKeepWet (port interval mode : Byte) (s : State) : State × Answer :=
  match portNumber port, keepWetModeOf mode with
  | some h, some m =>
    (s.updPort h (fun p =>
        let k := { p.keepWet with interval := interval.toNat, mode := m }
        { p with keepWet := if p.state = .ready then k.restart s.now else k }),
      .plain .done)
  | _, _ => (s, .plain .range)

/-! ### Giving up lines -/

/-- A row that gives up its pending line leaves the arbiter queue and becomes EMPTY (R128, R134, R140, R141). -/
def dropLineOf (h : Port) (k : RowIx) (s : State) : State :=
  (s.updRow h k Row.emptied).updPort h (fun p => { p with arbiter := p.arbiter.filter (fun j => j != k) })

/-- A row gives up its pending line with a release report (R128, R134, R140). -/
def giveUp (h : Port) (k : RowIx) (p : Plane) (cause : ReleaseCause) (s : State) : State :=
  match (s.row h k).line with
  | some l => release h k p l.serial cause (dropLineOf h k s)
  | none => dropLineOf h k s

/-- R140: what a row does when the job enters HALTED: a prefetched line still QUEUED is given up without a report. -/
def haltRow (h : Port) (s : State) (k : RowIx) : State :=
  let r := s.row h k
  match s.planeOf h with
  | some p =>
    if r.line.isNone then s
    else if r.load = .queued ∧ r.due = none then dropLineOf h k s
    else giveUp h k p .abandoned s
  | none => dropLineOf h k s

/-- R140: every row of every port gives up its pending line. -/
def haltRows (s : State) : State := allPorts.foldl (fun s h => allRows.foldl (haltRow h) s) s

/-- R141: every pending line dropped without a report and every arbiter queue emptied, on an entry to IDLE. -/
def HeadPort.dropLines (p : HeadPort) : HeadPort :=
  { p with rows := .ofFun (fun k => (p.rows.get k).emptied), arbiter := [] }

/-- R141 for every port. -/
def dropAllLines (s : State) : State := s.setPorts (.ofFun fun h => (s.ports.get h).dropLines)

/-! ### Fires (R137, R138) -/

/-- R132: a row joins the end of an arbiter queue at `now`, before the rows of higher number that joined at the same
instant. -/
def joinQueue (rows : Table 4 Row) (now : Nat) (k : RowIx) (queue : List RowIx) : List RowIx :=
  let after := fun j : RowIx => decide ((rows.get j).joined = now ∧ k.val < j.val)
  queue.takeWhile (fun j => !after j) ++ k :: queue.dropWhile (fun j => !after j)

/-- A row's pending line set and the row queued for its load (R132, R135, R138). -/
def queueLoad (h : Port) (k : RowIx) (l : PendingLine) (due : Option Nat) (s : State) : State :=
  s.updPort h fun p =>
    { p with
      rows := p.rows.upd k (fun r => { r with load := .queued, line := some l, due := due, joined := s.now }),
      arbiter := joinQueue p.rows s.now k p.arbiter }

/-- R138 steps 1 to 3: the head latches the row's levels, the row empties, its window starts, and a drop fire is counted and
restarts the keep-wet timer. -/
def fireLine (h : Port) (k : RowIx) (s : State) : State :=
  let inked := (s.row h k).inked
  let w := (s.geo.heads.get h).window
  let s := s.updRow h k (fun r => { r.emptied.startWindow s.now w with latched := r.data })
  if inked then
    bump (.dropFires h) (s.updPort h (fun p => { p with keepWet := p.keepWet.restart s.now }))
  else s

/-- R138 step 4: the row looks ahead to the line due at H + 1 and queues its load if the ring holds it. -/
def prefetch (h : Port) (k : RowIx) (s : State) : State :=
  match s.planeOf h, dueAt s.place.list (s.motion.h + 1 - (s.geo.heads.get h).d.get k) with
  | some p, some serial =>
    match (s.rings.get p).lookup serial with
    | some position => queueLoad h k ⟨serial, position⟩ none s
    | none => s
  | _, _ => s

/-- Whether a row can fire now (R137). -/
def State.canFire (s : State) (h : Port) (k : RowIx) : Bool :=
  let r := s.row h k
  r.load == .loaded && r.quiet && (match r.due with | some t => decide (t ≤ s.now) | none => false)
    && (s.job.state == .running || s.job.state == .stopping)

/-- R137, R138: a fire at or after the due time; a later instant is a late fire. -/
def fireNow (h : Port) (k : RowIx) (s : State) : State :=
  let late := match (s.row h k).due with | some t => decide (t < s.now) | none => false
  let s := fireLine h k s
  let s := if late then bump (.lateFires h) s else s
  prefetch h k s

/-- R134: a forced fire, with no prefetch. -/
def forceFire (h : Port) (k : RowIx) (s : State) : State := bump (.forcedFires h) (fireLine h k s)

/-! ### The print tick at a row (R134, R135, R140) -/

/-- R55: the fine delay. -/
def fineDelay (f : Nat) (period : Option Nat) : Nat :=
  match period with
  | some t => f * t / 256
  | none => 0

/-- R134: the previous line is forced or skipped. -/
def settlePrevious (h : Port) (k : RowIx) (p : Plane) (s : State) : State :=
  let r := s.row h k
  if r.due.isSome then
    if r.load = .loaded ∧ r.quiet then forceFire h k s
    else bump (.skippedLines h) (giveUp h k p .skipped s)
  else s

/-- R135: the row takes the line due at its offset. -/
def takeDue (h : Port) (k : RowIx) (p : Plane) (s : State) : State :=
  match dueAt s.place.list (s.motion.h - (s.geo.heads.get h).d.get k) with
  | none => s
  | some serial =>
    let s := raiseFrontier p serial s
    let due := s.now + fineDelay ((s.geo.heads.get h).f.get k) s.motion.period
    if (s.row h k).line.isSome then s.updRow h k (fun r => { r with due := some due })
    else
      match (s.rings.get p).lookup serial with
      | some position => queueLoad h k ⟨serial, position⟩ (some due) s
      | none => release h k p serial .underrun s

/-- R140: in HALTED a row with a line due makes a due report and an ABANDONED release. -/
def haltedTick (h : Port) (k : RowIx) (p : Plane) (s : State) : State :=
  match dueAt s.place.list (s.motion.h - (s.geo.heads.get h).d.get k) with
  | none => s
  | some serial => release h k p serial .abandoned (raiseFrontier p serial s)

/-- R131: what an acting row does at a print tick. -/
def rowTick (h : Port) (s : State) (k : RowIx) : State :=
  match s.planeOf h with
  | none => s
  | some p => if s.job.state = .halted then haltedTick h k p s else takeDue h k p (settlePrevious h k p s)

/-- The rows of a working port act in row order (R131, R132). -/
def portTick (s : State) (h : Port) : State := if s.working h then (s.rowsOf h).foldl (rowTick h) s else s

/-- A print tick delivered to every row engine (R49). -/
def rowsTick (s : State) : State := allPorts.foldl portTick s

/-! ### Loads (R132, R133) -/

/-- The row whose load is running on a port. -/
def State.loadingRow (s : State) (h : Port) : Option RowIx := allRows.find? (fun k => (s.row h k).load == .loading)

/-- The ticks of a load (R133). -/
def loadTicks (nozzles : Nat) : Nat := (nozzles + 1) / 2 + Config.loadOverhead

/-- R132, R133: the row at the front of the arbiter queue is granted the path and makes its load-begun report. -/
def grantLoad (h : Port) (s : State) : State :=
  match (s.ports.get h).arbiter, s.planeOf h with
  | k :: rest, some p =>
    let s := s.updPort h (fun q => { q with arbiter := rest })
    let s := s.updRow h k (fun r => { r with load := .loading, loadEnd := s.now + loadTicks (s.geo.heads.get h).nozzles })
    match (s.row h k).line with
    | some l => raiseFrontier p l.serial s
    | none => s
  | _, _ => s

/-- Whether the arbiter can grant a load on a port (R132). -/
def State.canGrant (s : State) (h : Port) : Bool :=
  (s.loadingRow h).isNone && !(s.ports.get h).arbiter.isEmpty && (s.planeOf h).isSome

/-- The row of a port whose load has run its time, with the plane, the serial and the ring block it reads. -/
def State.loadDone (s : State) (h : Port) : Option (RowIx × Plane × Nat × Nat) :=
  match s.loadingRow h, s.planeOf h with
  | some k, some p =>
    match (s.row h k).line with
    | some l => if (s.row h k).loadEnd ≤ s.now then some (k, p, l.serial, s.memory.ringBase p + l.position) else none
    | none => none
  | _, _ => none

/-- R133: a load completes: its words are read and counted (DESIGN CHOICE, notes/assumptions/14.md), the levels stand in the
row (DEDUCED, notes/assumptions/15.md), and the serial is released. -/
def completeLoad (h : Port) (k : RowIx) (p : Plane) (serial block : Nat) (s : State) : State :=
  let data := s.loadedData p serial (s.memory.pixel block) h k
  let s := countReads block (s.loadReads p h k) s
  let s := s.updRow h k (fun r => { r with load := .loaded, data := data, inked := data.any (fun v => decide (0 < v)) })
  release h k p serial .loaded s

/-! ### Port states (R126 to R129) -/

/-- A port's state changed, with its HEAD STATE notice (R126). -/
def setPortState (h : Port) (st : PortState) (s : State) : State :=
  placeNotice (.headState h st) (s.updPort h (fun p => { p with state := st }))

/-- R126, R142: a port becomes READY: its fault count starts from 0 and its keep-wet timer restarts. -/
def portReady (h : Port) (s : State) : State :=
  setPortState h .ready (s.updPort h (fun p => { p with faultCount := 0, keepWet := p.keepWet.restart s.now }))

/-- R129: a port leaves OFFLINE for READY with every row EMPTY and its offline-from serial absent. -/
def portRecovers (h : Port) (s : State) : State :=
  portReady h ((s.updPort h HeadPort.dropLines).setGeo { s.geo with offlineFrom := s.geo.offlineFrom.put h none })

/-- R4, R126, R142: a port goes to UNASSIGNED: it loses its offline-from serial and its timer is disarmed. Its fault
count is 0. DESIGN CHOICE, notes/assumptions/11.md. -/
def portUnassigned (h : Port) (s : State) : State :=
  setPortState h .unassigned
    ((s.updPort h (fun p => { p with faultCount := 0, keepWet := p.keepWet.disarm })).setGeo
      { s.geo with offlineFrom := s.geo.offlineFrom.put h none })

/-- R4: the effect of the plane field on the port state. -/
def setHeadPort (h : Port) (assigned : Bool) (s : State) : State :=
  match assigned, (s.ports.get h).state with
  | true, .unassigned => portReady h s
  | false, .ready => portUnassigned h s
  | false, .offline => portUnassigned h s
  | _, _ => s

/-- Whether a port's fault input is asserted. -/
def State.faultAsserted (s : State) (h : Port) : Bool := s.pins.fault.get h

end Sys2Proof.Machine
end

