-- ==== Sys2Proof/Machine/JobControl.lean ====
section
/-! DEFINITION. Machine/JobControl.lean: starting, stopping, aborting, restarting and halting the job, the IDLE entry, a head
going OFFLINE, and RESET (chapter 9, R128). -/

namespace Sys2Proof.Machine

/-- A change of the job state with its JOB STATE notice (R148). -/
def setJobState (st : JobState) (cause : JobCause) (s : State) : State :=
  placeNotice (.jobState st cause) (s.setJob { s.job with state := st })

/-! ### Halting (R156, R157) -/

/-- R157: the blocks act on the entry to HALTED. -/
def enterHalted (s : State) : State := haltRows (stopComposer s)

/-- R156: a halt cause reaches Job Control. -/
def raiseHalt (first : HaltCause) (cause : JobCause) (s : State) : State :=
  match s.job.state with
  | .running => enterHalted (placeNotice (.jobState .halted cause) (s.setJob ⟨.halted, first⟩))
  | .stopping => enterHalted (placeNotice (.jobState .halted cause) (s.setJob ⟨.halted, first⟩))
  | .halted => bump .laterHalts s
  | .idle => s

/-! ### The IDLE entry (R153) -/

/-- The Motion Unit on an entry to IDLE (R43, R52, R54). -/
def Motion.toIdle (m : Motion) : Motion :=
  { m with
    acc := 0, p := 0, h := 0, lastBoundary := none, period := none, pendingRatio := none,
    ratio := match m.pendingRatio with | some r => some r | none => m.ratio }

/-- R11: every pending switch completes, in plane order. -/
def completeSwitches (s : State) : State :=
  allPlanes.foldl (fun s p => if (s.geo.switches.get p).pending then completeSwitch p s else s) s

/-- R153: each block clears its job-level state. -/
def clearJob (s : State) : State :=
  let s := s.setMotion s.motion.toIdle
  let s := s.setPlace { s.place with list := [] }
  let s := clearComposer s
  let s := s.setRings (.all 6 .emptied)
  completeSwitches (dropAllLines s)

/-- R153, R154: the IDLE entry of stop completion and Abort with the channels that drain by it. -/
def enterIdle (cause : JobCause) (s : State) : State :=
  closeAllDrained (clearJob (if s.job.state = .idle then s else setJobState .idle cause s))

/-! ### Requests of Job Control -/

/-- A CHECK reply (section 11.4). -/
def checkAnswer (f : CheckFailure) : Answer := ⟨.check, leBytes 1 f.detail.code ++ leBytes 1 f.plane ++ leBytes 2 f.value⟩

/-- R150: a job starts. -/
def startJob (s : State) : State :=
  let s := s.setMotion { s.motion with acc := 0, p := 0, h := 0, lastBoundary := none, period := none }
  let s := s.setPlace
    { triggers := .ofFun (fun i => { s.place.triggers.get i with lockoutEnd := 0 }), list := [],
      nextSequence := (match s.composer.pages with | e :: _ => e.first | [] => s.composer.nextSequence),
      floor := 0, dMax := s.geo.dMax }
  let s := s.setRings (.ofFun fun p =>
    if s.geo.configured p then { s.rings.get p with frontier := -1, retire := -1 } else s.rings.get p)
  let s := s.setPorts (.ofFun fun h =>
    if s.geo.inUse h then
      { s.ports.get h with rows := .ofFun (fun k => { (s.ports.get h).rows.get k with release := -1 }) }
    else s.ports.get h)
  setJobState .running .start (s.setJob { s.job with firstHalt := .none })

/-- R149: Start Job. -/
def ownStartJob (s : State) : State × Answer :=
  if s.job.state ≠ .idle then (s, .plain .state)
  else match startCheck s with
    | some f => (s, checkAnswer f)
    | none => (startJob s, .plain .done)

/-- R151: Stop Job; with an empty placement list the stop completes in the same event. -/
def ownStopJob (s : State) : State × Answer :=
  if s.job.state ≠ .running then (s, .plain .state)
  else
    let s := stopComposer (setJobState .stopping .stop s)
    (if s.place.list.isEmpty then enterIdle .stopComplete s else s, .plain .done)

/-- R154: Abort. -/
def ownAbort (s : State) : State × Answer := (enterIdle .abort s, .plain .done)

/-- R155: an OFFLINE port whose fault input is not asserted goes to READY. -/
def recoverPort (s : State) (h : Port) : State :=
  if (s.ports.get h).state = .offline ∧ s.faultAsserted h = false then portRecovers h s else s

/-- R155: Restart. The counters and flags are cleared before the event's own notices are placed. DESIGN CHOICE,
notes/assumptions/6.md. -/
def ownRestart (s : State) : State × Answer :=
  let s := s.setCounters s.counters.clearCounts.clearAnnounced
  let s := s.setFeed { s.feed with noticesLost := false }
  let s := if s.job.state = .idle then s else setJobState .idle .restart s
  let s := clearJob (s.setJob { s.job with firstHalt := .none })
  let s := s.setMotion { s.motion with rawCount := 0 }
  let s := closeAllChannels (s.setTemplates { s.templates with writing := none })
  (allPorts.foldl recoverPort s, .plain .done)

/-! ### A head going OFFLINE (R127, R128, R122) -/

/-- R128 for a head in use on plane `p` during a job. The fault count is 0. DESIGN CHOICE, notes/assumptions/11.md. -/
def offlineInJob (h : Port) (p : Plane) (s : State) : State :=
  let s := s.setGeo { s.geo with offlineFrom := s.geo.offlineFrom.put h (some ((s.rings.get p).frontier + 1).toNat) }
  let s := s.updPort h (fun q => { q with state := .offline, faultCount := 0 })
  let s := allRows.foldl (fun s k => if (s.row h k).line.isSome then giveUp h k p .abandoned s else s) s
  let s := reformRetire p s
  let s := placeNotice (.headState h .offline) (s.updPort h (fun q => { q with keepWet := q.keepWet.disarm }))
  if (s.geo.heads.get h).policy = .halt then raiseHalt (.headFault h) (.headFault h) s else s

/-- R127, R128: a port goes OFFLINE. Its fault count is 0. DESIGN CHOICE, notes/assumptions/11.md. -/
def portOffline (h : Port) (s : State) : State :=
  match s.job.state, s.planeOf h with
  | .idle, _ => setPortState h .offline (s.updPort h (fun q => { q with faultCount := 0, keepWet := q.keepWet.disarm }))
  | _, none => setPortState h .offline (s.updPort h (fun q => { q with faultCount := 0, keepWet := q.keepWet.disarm }))
  | _, some p => offlineInJob h p s

/-- Whether a port's fault count has reached 1 µs (R127). -/
def State.faultReached (s : State) (h : Port) : Bool :=
  (s.ports.get h).state == .ready && decide (Config.faultTicks ≤ (s.ports.get h).faultCount)

/-! ### Power-on and RESET (R159) -/

/-- Every piece of the part's state at its power-on value; the waiting commands, the timebase and the pins are outside
the part. Power-on leaves the RESET input not asserted, even where it was. DESIGN CHOICE, notes/assumptions/29.md. -/
def powerOnState (s : State) : State :=
  { State.reset with pending := s.pending, now := s.now, pins := s.pins, inputs := s.inputs }

/-- R159, R76: RESET asserted: power-on values, the contents of the frame memory unchanged, held until release. -/
def resetState (s : State) : State :=
  { powerOnState s with resetHeld := true, memory := { FrameMemory.reset with cells := s.memory.cells, errors := s.memory.errors } }

end Sys2Proof.Machine
end

