-- ==== Sys2Proof/Machine/MotionUnit.lean ====
section
/-! DEFINITION. Machine/MotionUnit.lean: encoder decoding, the ratio accumulator, print ticks and the line period (chapter 3). -/

namespace Sys2Proof.Machine

/-- The forward successor of a pair under a sense (R40). -/
def forwardOf (sense : Sense) (pair : Bool × Bool) : Bool × Bool :=
  match sense with
  | .aLeads => (!pair.2, pair.1)
  | .bLeads => (pair.2, !pair.1)

/-- R54: the line period at a print tick stamped `now`. -/
def linePeriod (last : Option Boundary) (now : Nat) : Option Nat :=
  match last with
  | some b => if b.printTick ∧ now - b.stamp ≤ Config.maxLinePeriod then some (now - b.stamp) else none
  | none => none

/-- R52: a pending ratio applied at a boundary made with the old one. -/
def Motion.applyPending (m : Motion) : Motion :=
  match m.pendingRatio, m.ratio with
  | some r, some old => { m with acc := m.acc * r.m / old.m, ratio := some r, pendingRatio := none }
  | _, _ => m

/-- R46, R53, R54: the Motion Unit's side of a print tick at position `p`. -/
def Motion.printTick (m : Motion) (p : Int) (now : Nat) : Motion :=
  { m with p := p, h := p, period := linePeriod m.lastBoundary now, lastBoundary := some ⟨now, true⟩ }.applyPending

/-- R47, R53: the Motion Unit's side of a re-travel boundary that leaves position `p`. -/
def Motion.reTravel (m : Motion) (p : Int) (now : Nat) : Motion :=
  { m with p := p, lastBoundary := some ⟨now, false⟩ }.applyPending

/-- R46, R47: a forward boundary: a print tick beyond H, re-travel otherwise. -/
def forwardBoundary (s : State) : State :=
  let p := s.motion.p + 1
  if s.motion.h < p then rowsTick (placementTick (s.setMotion (s.motion.printTick p s.now)))
  else bump .reTravelBoundaries (s.setMotion (s.motion.reTravel p s.now))

/-- R47, R48: a reverse boundary, compared with the reverse limit in RUNNING and STOPPING. -/
def reverseBoundary (s : State) : State :=
  let s := bump .reTravelBoundaries (s.setMotion (s.motion.reTravel (s.motion.p - 1) s.now))
  if (s.job.state = .running ∨ s.job.state = .stopping) ∧ (s.motion.reverseLimit : Int) < s.motion.h - s.motion.p then
    raiseHalt .reverse .reverse s
  else s

/-- R44: a forward count at the accumulator. -/
def accumulateForward (s : State) : State :=
  match s.motion.ratio with
  | some r =>
    let a := s.motion.acc + r.n
    if r.m ≤ a then forwardBoundary (s.setMotion { s.motion with acc := a - r.m })
    else s.setMotion { s.motion with acc := a }
  | none => s

/-- R45: a reverse count at the accumulator. -/
def accumulateReverse (s : State) : State :=
  match s.motion.ratio with
  | some r =>
    if s.motion.acc < r.n then reverseBoundary (s.setMotion { s.motion with acc := s.motion.acc + r.m - r.n })
    else s.setMotion { s.motion with acc := s.motion.acc - r.n }
  | none => s

/-- R40, R42: a forward count. -/
def forwardCount (s : State) : State :=
  let s := s.setMotion { s.motion with rawCount := s.motion.rawCount + 1 }
  if s.job.state = .idle then s else accumulateForward s

/-- R40, R42: a reverse count. -/
def reverseCount (s : State) : State :=
  let s := s.setMotion { s.motion with rawCount := s.motion.rawCount - 1 }
  if s.job.state = .idle then s else accumulateReverse s

/-- What the decoder makes of a new pair (R40, R41). -/
inductive Decoded where
  | forward | reverse | illegal
  deriving DecidableEq, Repr

/-- R40, R41: the decoder's table. -/
def decodePair (sense : Sense) (last new : Bool × Bool) : Decoded :=
  if last.1 ≠ new.1 ∧ last.2 ≠ new.2 then .illegal
  else if new = forwardOf sense last then .forward
  else .reverse

/-- R38, R40, R41: the encoder inputs whose hold has reached F are accepted at this tick, and the change is decoded. -/
def encoderAccept (s : State) : State :=
  let m := s.motion
  let a := if m.inputA.reached then m.inputA.accept else m.inputA
  let b := if m.inputB.reached then m.inputB.accept else m.inputB
  let new := (a.level, b.level)
  let s := s.setMotion { m with inputA := a, inputB := b, lastPair := new }
  match decodePair m.sense m.lastPair new with
  | .forward => forwardCount s
  | .reverse => reverseCount s
  | .illegal => bump .encoderErrors s

/-- Whether an encoder input's hold has reached F (R38). -/
def Motion.acceptReady (m : Motion) : Bool := m.inputA.reached || m.inputB.reached

/-- R37: Set Motion. A hold in progress is compared with the new F (R39). -/
def ownSetMotion (sense filter : Byte) (reverseLimit : BitVec 16) (n m : BitVec 24) (s : State) : State × Answer :=
  match senseOf sense, ratioOf n m with
  | some e, some r =>
    if s.job.state ≠ .idle then (s, .plain .held)
    else
      (s.setMotion { s.motion with
          sense := e, filter := filter.toNat, reverseLimit := reverseLimit.toNat, ratio := some r,
          inputA := s.motion.inputA.refilter filter.toNat, inputB := s.motion.inputB.refilter filter.toNat },
        .plain .done)
  | _, _ => (s, .plain .range)

/-- R51: Set Ratio. -/
def ownSetRatio (n m : BitVec 24) (s : State) : State × Answer :=
  match ratioOf n m with
  | none => (s, .plain .range)
  | some r =>
    if s.job.state = .idle then (s.setMotion { s.motion with ratio := some r }, .plain .done)
    else (s.setMotion { s.motion with pendingRatio := some r }, .plain .done)

end Sys2Proof.Machine
end

