-- ==== Sys2Proof/Machine/Requests.lean ====
section
/-! DEFINITION. Machine/Requests.lean: the requests of the Geometry Store, the Feed Link Port and the records, the handling of a
request from its owner's answer to its reply (R171), and the meanings of the 24 request commands. -/

namespace Sys2Proof.Machine

/-! ### Geometry Store (chapter 1) -/

/-- Whether the Patch Pool holds a patch for a plane, the one whose slot is being written included (R2, R96). -/
def PatchPool.holdsPlane (q : PatchPool) (p : Plane) : Bool :=
  q.index.any (fun e => e.plane == p) || (match q.writing with | some w => w.entry.plane == p | none => false)

/-- R2 test 3: whether a new record changes whether its plane is configured while a template or a patch depends on it. -/
def State.planeInUse (s : State) (p : Plane) (r : PlaneRec) : Bool :=
  let was := s.geo.configured p
  let becomes := decide (0 < r.width)
  (was != becomes && s.templates.anyDefined) || (was && !becomes && s.pool.holdsPlane p)

/-- R2: Set Plane. -/
def ownSetPlane (plane : Byte) (width : BitVec 16) (add1 add2 add3 weakCap : Byte) (s : State) : State × Answer :=
  match planeNumber plane, planeRecOf width add1 add2 add3 weakCap with
  | some p, some r =>
    if s.job.state ≠ .idle then (s, .plain .held)
    else if s.planeInUse p r then (s, .plain .inUse)
    else (s.setGeo { s.geo with planes := s.geo.planes.put p r }, .plain .done)
  | _, _ => (s, .plain .range)

/-- R4: Set Head. -/
def ownSetHead (port plane : Byte) (first : BitVec 16) (rows : Byte) (nozzles : BitVec 16) (d f : Table 4 Nat)
    (window : BitVec 16) (policy : Byte) (s : State) : State × Answer :=
  match portNumber port, headRecOf plane first rows nozzles d f window policy with
  | some h, some r =>
    if s.job.state ≠ .idle then (s, .plain .held)
    else
      (setHeadPort h r.plane.isSome (s.setGeo { s.geo with heads := s.geo.heads.put h r }), .plain .done)
  | _, _ => (s, .plain .range)

/-- R6: Set Seam. -/
def ownSetSeam (entry left right shift : Byte) (pattern : BitVec 64) (s : State) : State × Answer :=
  match seamNumber entry, seamRecOf left right shift pattern with
  | some e, some r =>
    if s.job.state ≠ .idle then (s, .plain .held)
    else (s.setGeo { s.geo with seams := s.geo.seams.put e r }, .plain .done)
  | _, _ => (s, .plain .range)

/-- The port, row and run of nozzles that Set Nozzles and Read Nozzles name, when they pass the RANGE test of R8 and R12
with the count of 1 to 768 of R180. -/
def Geometry.nozzleRun (g : Geometry) (port row : Byte) (first count : BitVec 16) : Option Port :=
  match portNumber port with
  | some h =>
    let r := g.heads.get h
    if row.toNat < r.rows ∧ 1 ≤ count.toNat ∧ count.toNat ≤ Config.rowNozzles ∧ first.toNat + count.toNat ≤ r.nozzles then some h
    else none
  | none => none

/-- R8, R9: Set Nozzles. -/
def ownSetNozzles (port row : Byte) (first count : BitVec 16) (statuses : List Byte) (s : State) : State × Answer :=
  match s.geo.nozzleRun port row first count with
  | none => (s, .plain .range)
  | some h =>
    if statuses.length ≠ count.toNat then (s, .plain .length)
    else
      match statusesOf statuses, s.planeOf h with
      | none, _ => (s, .plain .range)
      | some xs, some p =>
        if s.job.state = .idle then
          (s.setGeo { s.geo with active := sparseWriteRun .live s.geo.active (nozzlePosition h row.toNat first.toNat) xs },
            .plain .done)
        else if (s.geo.switches.get p).pending then (s, .plain .pending)
        else (s.setGeo (s.geo.stage p (s.rings.get p).frontier h row.toNat first.toNat xs), .plain .done)
      | some xs, none =>
        (s.setGeo { s.geo with active := sparseWriteRun .live s.geo.active (nozzlePosition h row.toNat first.toNat) xs },
          .plain .done)

/-- The stored statuses of a run of nozzles, one byte each (section 11.4). -/
def statusBytes (m : List (Nat × NozzleStatus)) (h : Port) (row first count : Nat) : List Byte :=
  (List.range count).map (fun i => (nozzleStatus m h row (first + i)).code)

/-- R12: Read Nozzles. -/
def ownReadNozzles (port row : Byte) (first count : BitVec 16) (s : State) : State × Answer :=
  match s.geo.nozzleRun port row first count with
  | none => (s, .plain .range)
  | some h =>
    let active := statusBytes s.geo.active h row.toNat first.toNat count.toNat
    let staged := statusBytes s.geo.staged h row.toNat first.toNat count.toNat
    match (s.planeOf h).map s.geo.switches.get with
    | some ⟨true, e⟩ => (s, ⟨.done, [1] ++ leBytes 6 e ++ leBytes 2 count.toNat ++ active ++ staged⟩)
    | _ => (s, ⟨.done, [0] ++ leBytes 6 0 ++ leBytes 2 count.toNat ++ active⟩)

/-- R14: Restore Head. -/
def ownRestoreHead (port : Byte) (s : State) : State × Answer :=
  match portNumber port with
  | none => (s, .plain .range)
  | some h =>
    if s.job.state ≠ .idle then (s, .plain .held)
    else if (s.ports.get h).state ≠ .offline then (s, .plain .done)
    else if s.faultAsserted h then (s, .plain .state)
    else (portRecovers h s, .plain .done)

/-! ### Feed Link Port (chapter 10) -/

/-- R167 test 3: a channel takes its plane set and quota and joins the end of the reservation order. -/
def joinOrder (c : DataCh) (planes : BitVec 6) (quota : Nat) (s : State) : State :=
  let s := s.setFeed { s.feed with
    channels := s.feed.channels.put c ⟨.closed, planes, quota⟩, order := s.feed.order ++ [c] }
  serveOrder (setChannelState c .waiting s)

/-- R167: Open Channel. -/
def ownOpenChannel (channel planes : Byte) (quota : BitVec 16) (s : State) : State × Answer :=
  match channelNumber channel, planeSetOf planes with
  | some c, some set =>
    if quota.toNat = 0 ∨ s.memory.slots < quota.toNat then (s, .plain .range)
    else if (s.feed.channels.get c).state ≠ .closed then
      (s, ⟨.state, leBytes 1 (s.feed.channels.get c).state.code⟩)
    else
      let s := joinOrder c set quota.toNat s
      (s, ⟨.done, leBytes 1 (s.feed.channels.get c).state.code⟩)
  | _, _ => (s, .plain .range)

/-- R169: what Close Channel does to a channel that is WAITING, PENDING or OPEN. -/
def closeChannel (c : DataCh) (s : State) : State :=
  if (s.feed.channels.get c).state = .waiting then
    serveOrder (setChannelState c .closed (s.setFeed { s.feed with order := s.feed.order.filter (fun d => d != c) }))
  else if s.channelEmpty c then serveOrder (setChannelState c .closed s)
  else setChannelState c .draining s

/-- R169: Close Channel. -/
def ownCloseChannel (channel : Byte) (s : State) : State × Answer :=
  match channelNumber channel with
  | none => (s, .plain .range)
  | some c =>
    if (s.feed.channels.get c).state = .closed ∨ (s.feed.channels.get c).state = .draining then (s, .plain .state)
    else
      let s := closeChannel c s
      (s, ⟨.done, leBytes 1 (s.feed.channels.get c).state.code⟩)

/-- R173: Set Notices. -/
def ownSetNotices (mask : Byte) (s : State) : State × Answer := (s.setFeed { s.feed with mask := mask }, .plain .done)

/-! ### The records (chapter 11) -/

/-- R181: Identify. -/
def ownIdentify (s : State) : State × Answer := (s, ⟨.done, identityRecord⟩)

/-- The motion flags of the record: ratio set, ratio pending, T valid (section 11.7). -/
def Motion.flags (m : Motion) : Nat := flagBit m.ratio.isSome 1 + flagBit m.pendingRatio.isSome 2 + flagBit m.period.isSome 4

/-- Offsets 0 to 42 of the record (section 11.7): the job, motion, placement and Composer fields. -/
def State.reportHead (s : State) : List Byte :=
  leBytes 1 s.job.state.code ++ leBytes 1 s.job.firstHalt.codes.1 ++ leBytes 1 s.job.firstHalt.codes.2
    ++ leBytes 1 s.waitReason.codes.1 ++ leBytes 1 s.waitReason.codes.2 ++ leBytes 1 (flagBit s.feed.noticesLost 1)
    ++ leBytes 1 s.motion.flags ++ leBytes 1 s.place.list.length ++ leSigned6 s.motion.p ++ leSigned6 s.motion.h
    ++ leBytes 4 (s.motion.period.getD 0)
    ++ (match s.motion.ratio with | some r => leBytes 3 r.n ++ leBytes 3 r.m | none => leBytes 3 0 ++ leBytes 3 0)
    ++ leBytes 4 s.motion.rawCount.toNat ++ leBytes 1 s.composer.pages.length ++ leBytes 2 s.pool.heldSlots.length
    ++ leBytes 4 s.composer.copy ++ leBytes 2 s.composer.line

/-- Offsets 43 to 51: each data channel's state and slots in use. -/
def State.reportChannels (s : State) : List Byte :=
  allDataCh.flatMap (fun c => leBytes 1 (s.feed.channels.get c).state.code ++ leBytes 2 (s.slotsInUse c))

/-- Offsets 52 to 63: the port states. -/
def State.reportPorts (s : State) : List Byte := allPorts.flatMap (fun h => leBytes 1 (s.ports.get h).state.code)

/-- Offsets 64 to 153: each plane's ring fill, retire point, frontier and pending flag. -/
def State.reportPlanes (s : State) : List Byte :=
  allPlanes.flatMap fun p =>
    leBytes 2 (s.rings.get p).entries.length ++ leSigned6 (s.rings.get p).retire ++ leSigned6 (s.rings.get p).frontier
      ++ leBytes 1 (flagBit (s.geo.switches.get p).pending 1)

/-- The part-wide counters in code order. -/
def partCounters : List CounterId :=
  [.encoderErrors, .reTravelBoundaries, .reTravelEdges, .lockoutEdges, .missedProducts, .earlyTriggers, .copiesPrinted,
    .correctedWords, .uncorrectableWords, .templateLinesDropped, .patchesDropped, .patchesClipped, .laterHalts,
    .headerErrors, .protocolErrors]

/-- The counters of the record in its order: part-wide, per plane, per port. -/
def reportedCounters : List CounterId :=
  partCounters ++ allPlanes.flatMap (fun p => [.underruns p, .lateLines p])
    ++ allPorts.flatMap (fun h => [.dropFires h, .forcedFires h, .lateFires h, .skippedLines h, .keepWetPulses h])

/-- Offsets 154 to 501: the counters. -/
def State.reportCounters (s : State) : List Byte := reportedCounters.flatMap (fun c => leBytes 4 (s.countOf c).toNat)

/-- The Status Report record (section 11.7). -/
def State.reportRecord (s : State) : List Byte :=
  s.reportHead ++ s.reportChannels ++ s.reportPorts ++ s.reportPlanes ++ s.reportCounters

/-- R182 steps 2 and 3: the flags cleared, and with option 1 the counters. -/
def clearReported (clear : Bool) (s : State) : State :=
  let counters := if clear then s.counters.clearCounts else s.counters
  (s.setCounters counters.clearAnnounced).setFeed { s.feed with noticesLost := false }

/-- R182: Status Report. -/
def ownStatusReport (option : Byte) (s : State) : State × Answer :=
  match option.toNat with
  | 0 => (clearReported false s, ⟨.done, s.reportRecord⟩)
  | 1 => (clearReported true s, ⟨.done, s.reportRecord⟩)
  | _ => (s, .plain .range)

/-! ### The handling of a request (R171) -/

/-- R171 test 4: the owner of a request answers it. -/
def handle : Request → State → State × Answer
  | .identify => ownIdentify
  | .statusReport o => ownStatusReport o
  | .setPlane p w a b c k => ownSetPlane p w a b c k
  | .setHead h p c r n d0 d1 d2 d3 f0 f1 f2 f3 w y =>
    ownSetHead h p c r n #v[d0.toNat, d1.toNat, d2.toNat, d3.toNat] #v[f0.toNat, f1.toNat, f2.toNat, f3.toNat] w y
  | .setSeam e l r sh pat => ownSetSeam e l r sh pat
  | .setNozzles h k n c st => ownSetNozzles h k n c st
  | .readNozzles h k n c => ownReadNozzles h k n c
  | .restoreHead h => ownRestoreHead h
  | .setMotion se f r n m => ownSetMotion se f r n m
  | .setRatio n m => ownSetRatio n m
  | .setTrigger i e f l => ownSetTrigger i e f l
  | .setKeepWet h i m => ownSetKeepWet h i m
  | .setMemoryPlan sl d0 d1 d2 d3 d4 d5 => ownSetMemoryPlan sl d0 d1 d2 d3 d4 d5
  | .defineTemplate t l => ownDefineTemplate t l
  | .dropTemplate t => ownDropTemplate t
  | .queuePage t c l g o sr pt => ownQueuePage t c l g o sr pt
  | .mark c v => ownMark c v
  | .openChannel c p q => ownOpenChannel c p q
  | .closeChannel c => ownCloseChannel c
  | .setNotices m => ownSetNotices m
  | .startJob => ownStartJob
  | .stopJob => ownStopJob
  | .abort => ownAbort
  | .restart => ownRestart

/-- R11: a switch staged with the retire point already at or above E − 1 completes once the DONE reply is queued. -/
def completeStaged (port : Byte) (result : Result) (s : State) : State :=
  match portNumber port with
  | some h =>
    match s.planeOf h with
    | some p => if result = .done ∧ s.job.state ≠ .idle ∧ switchReached s p = true then completeSwitch p s else s
    | none => s
  | none => s

/-- What follows the reply in the same event: the switch of R11, and the continuous placement of a start (R150, R68).
DEDUCED, notes/assumptions/10.md. -/
def afterReply : Request → Result → State → State
  | .setNozzles h _ _ _ _, r, s => completeStaged h r s
  | .startJob, .done, s => placeContinuous s
  | _, _, s => s

/-- A request handled whole (R171): the owner's effect, the reply, and what follows it. -/
def serve (tag : Byte) (r : Request) (s : State) : State :=
  afterReply r (handle r s).2.result (placeReply tag r.code (handle r s).2 (handle r s).1)

/-- Whether a request waits for a template line being written: Define Template and Drop Template (R86). -/
def waitsForWrite : Request → Bool
  | .defineTemplate .. => true
  | .dropTemplate _ => true
  | _ => false

/-- Whether a request can be handled now: the reply queue has a free entry (R171) and no template line that it must wait
for is being written (R86). -/
def State.canServe (s : State) (r : Request) : Bool := s.replyRoom && !(waitsForWrite r && s.templates.writing.isSome)

/-- A request command: the request handled whole, where it can be. DESIGN CHOICE, notes/assumptions/5.md. -/
def request (tag : Byte) (r : Request) (s : State) : Host.Outcome State Fault Refusal := act s (s.canServe r) (serve tag r)

/-! ### The request taken from the control request queue (R171) -/

/-- What becomes of a queued request: a reply of R171 tests 1 to 3, or the request its payload carries. -/
inductive Taken where
  | answer (code : Byte) (result : Result)
  | serve (r : Request)
  deriving DecidableEq, Repr

/-- R171 tests 1 to 3 of a queued request. -/
def judgeRequest (q : QueuedRequest) : Taken :=
  if q.intact = false then .answer (byteAt q.payload 0) .corrupt
  else match decodeRequest q.payload with
    | .empty => .answer 0 .length
    | .unknown code => .answer code .unknown
    | .length code => .answer code .length
    | .request r => .serve r

/-- Whether the head of the control request queue can be taken now (R171, R86). -/
def State.canTake (s : State) : Bool :=
  match s.feed.requests with
  | q :: _ => match judgeRequest q with
    | .answer _ _ => s.replyRoom
    | .serve r => s.canServe r
  | [] => false

/-- R171: the request at the head of the queue is taken and answered. -/
def takeRequest (s : State) : State :=
  match s.feed.requests with
  | q :: rest =>
    let s := s.setFeed { s.feed with requests := rest }
    match judgeRequest q with
    | .answer code result => placeReply q.tag code (.plain result) s
    | .serve r => serve q.tag r s
  | [] => s

/-! ### The meanings of the request commands -/

/-- IDENTIFY (R181). -/
def execIdentify (tag : Byte) (s : State) : Host.Outcome State Fault Refusal := request tag .identify s

/-- STATUS_REPORT (R182). -/
def execStatusReport (tag option : Byte) (s : State) : Host.Outcome State Fault Refusal := request tag (.statusReport option) s

/-- SET_PLANE (R2). -/
def execSetPlane (tag plane : Byte) (width : BitVec 16) (add1 add2 add3 weakCap : Byte) (s : State) :
    Host.Outcome State Fault Refusal :=
  request tag (.setPlane plane width add1 add2 add3 weakCap) s

/-- SET_HEAD (R4). -/
def execSetHead (tag port plane : Byte) (first : BitVec 16) (rows : Byte) (nozzles d0 d1 d2 d3 : BitVec 16)
    (f0 f1 f2 f3 : Byte) (window : BitVec 16) (policy : Byte) (s : State) : Host.Outcome State Fault Refusal :=
  request tag (.setHead port plane first rows nozzles d0 d1 d2 d3 f0 f1 f2 f3 window policy) s

/-- SET_SEAM (R6). -/
def execSetSeam (tag entry left right shift : Byte) (pattern : BitVec 64) (s : State) : Host.Outcome State Fault Refusal :=
  request tag (.setSeam entry left right shift pattern) s

/-- SET_NOZZLES (R8, R9, R11). -/
def execSetNozzles (tag port row : Byte) (first count : BitVec 16) (statuses : List Byte) (s : State) :
    Host.Outcome State Fault Refusal :=
  request tag (.setNozzles port row first count statuses) s

/-- READ_NOZZLES (R12). -/
def execReadNozzles (tag port row : Byte) (first count : BitVec 16) (s : State) : Host.Outcome State Fault Refusal :=
  request tag (.readNozzles port row first count) s

/-- RESTORE_HEAD (R14). -/
def execRestoreHead (tag port : Byte) (s : State) : Host.Outcome State Fault Refusal := request tag (.restoreHead port) s

/-- SET_MOTION (R37). -/
def execSetMotion (tag sense filter : Byte) (reverseLimit : BitVec 16) (n m : BitVec 24) (s : State) :
    Host.Outcome State Fault Refusal :=
  request tag (.setMotion sense filter reverseLimit n m) s

/-- SET_RATIO (R51). -/
def execSetRatio (tag : Byte) (n m : BitVec 24) (s : State) : Host.Outcome State Fault Refusal := request tag (.setRatio n m) s

/-- SET_TRIGGER (R59). -/
def execSetTrigger (tag input edge filter : Byte) (lockout : BitVec 16) (s : State) : Host.Outcome State Fault Refusal :=
  request tag (.setTrigger input edge filter lockout) s

/-- SET_KEEP_WET (R143). -/
def execSetKeepWet (tag port interval mode : Byte) (s : State) : Host.Outcome State Fault Refusal :=
  request tag (.setKeepWet port interval mode) s

/-- SET_MEMORY_PLAN (R79). -/
def execSetMemoryPlan (tag : Byte) (slots d0 d1 d2 d3 d4 d5 : BitVec 16) (s : State) : Host.Outcome State Fault Refusal :=
  request tag (.setMemoryPlan slots d0 d1 d2 d3 d4 d5) s

/-- DEFINE_TEMPLATE (R85). -/
def execDefineTemplate (tag template : Byte) (length : BitVec 16) (s : State) : Host.Outcome State Fault Refusal :=
  request tag (.defineTemplate template length) s

/-- DROP_TEMPLATE (R90). -/
def execDropTemplate (tag template : Byte) (s : State) : Host.Outcome State Fault Refusal := request tag (.dropTemplate template) s

/-- QUEUE_PAGE (R93, R94). -/
def execQueuePage (tag template : Byte) (copies length gap top : BitVec 16) (source patched : Byte) (s : State) :
    Host.Outcome State Fault Refusal :=
  request tag (.queuePage template copies length gap top source patched) s

/-- MARK (R103). -/
def execMark (tag : Byte) (copy : BitVec 32) (value : BitVec 16) (s : State) : Host.Outcome State Fault Refusal :=
  request tag (.mark copy value) s

/-- OPEN_CHANNEL (R167). -/
def execOpenChannel (tag channel planes : Byte) (quota : BitVec 16) (s : State) : Host.Outcome State Fault Refusal :=
  request tag (.openChannel channel planes quota) s

/-- CLOSE_CHANNEL (R169). -/
def execCloseChannel (tag channel : Byte) (s : State) : Host.Outcome State Fault Refusal := request tag (.closeChannel channel) s

/-- SET_NOTICES (R173). -/
def execSetNotices (tag mask : Byte) (s : State) : Host.Outcome State Fault Refusal := request tag (.setNotices mask) s

/-- START_JOB (R149, R150). -/
def execStartJob (tag : Byte) (s : State) : Host.Outcome State Fault Refusal := request tag .startJob s

/-- STOP_JOB (R151). -/
def execStopJob (tag : Byte) (s : State) : Host.Outcome State Fault Refusal := request tag .stopJob s

/-- ABORT (R154). -/
def execAbort (tag : Byte) (s : State) : Host.Outcome State Fault Refusal := request tag .abort s

/-- RESTART (R155). -/
def execRestart (tag : Byte) (s : State) : Host.Outcome State Fault Refusal := request tag .restart s

end Sys2Proof.Machine
end

