-- ==== Sys2Proof/Machine/Events.lean ====
section
/-! DEFINITION. Machine/Events.lean: the meanings of the 30 event commands: when each event can occur, and what it does. An
event that cannot occur leaves the state unchanged (`act`). -/

namespace Sys2Proof.Machine

/-! ### Job Control and the Geometry Store -/

/-- Whether a stopping job has no placement left (R152). -/
def State.stopDone (s : State) : Bool := s.job.state == .stopping && s.place.list.isEmpty

/-- STOP_COMPLETION (R152). -/
def execStopCompletion (s : State) : Host.Outcome State Fault Refusal := act s s.stopDone (enterIdle .stopComplete)

/-- MAP_SWITCH_COMPLETE (R11). -/
def execMapSwitchComplete (plane : Plane) (s : State) : Host.Outcome State Fault Refusal :=
  act s (switchReached s plane) (completeSwitch plane)

/-! ### Inputs -/

/-- ENCODER_FILTER_ACCEPT (R38 to R49). -/
def execEncoderFilterAccept (s : State) : Host.Outcome State Fault Refusal := act s s.motion.acceptReady encoderAccept

/-- PD_FILTER_ACCEPT (R60, R63 to R65). -/
def execPdFilterAccept (input : PdIx) (s : State) : Host.Outcome State Fault Refusal :=
  act s (s.place.triggers.get input).input.reached (pdAccept input)

/-- CONTINUOUS_PLACEMENT (R67). -/
def execContinuousPlacement (s : State) : Host.Outcome State Fault Refusal := act s s.continuousEntry.isSome placeContinuous

/-! ### Head ports -/

/-- HEAD_FAULT (R127, R128). -/
def execHeadFault (port : Port) (s : State) : Host.Outcome State Fault Refusal := act s (s.faultReached port) (portOffline port)

/-- LOAD_GRANT (R132, R133). -/
def execLoadGrant (port : Port) (s : State) : Host.Outcome State Fault Refusal := act s (s.canGrant port) (grantLoad port)

/-- The first block number outside the frame memory, if there is one (R76). -/
def outsideMemory (blocks : List Nat) : Option Nat := blocks.find? (fun b => decide (Config.blocks ≤ b))

/-- An event that reads or writes blocks: a fault where one lies outside the frame memory (R76), the event otherwise. -/
def actOn (s : State) (blocks : List Nat) (event : State → State) : Host.Outcome State Fault Refusal :=
  match outsideMemory blocks with
  | some b => if s.resetHeld then .next s else .fault (.noSuchBlock b)
  | none => act s true event

/-- LOAD_COMPLETE (R133). -/
def execLoadComplete (port : Port) (s : State) : Host.Outcome State Fault Refusal :=
  match s.loadDone port with
  | some (k, p, serial, block) => actOn s [block] (completeLoad port k p serial block)
  | none => .next s

/-- FIRE (R137, R138). -/
def execFire (port : Port) (row : RowIx) (s : State) : Host.Outcome State Fault Refusal :=
  act s (s.canFire port row) (fireNow port row)

/-- Whether a row's window has run its time (R139). -/
def State.windowOver (s : State) (h : Port) (k : RowIx) : Bool :=
  match (s.row h k).window with
  | some e => decide (e ≤ s.now)
  | none => false

/-- FIRE_WINDOW_END (R139): the row becomes QUIET; FIRE and KEEP_WET_PULSE are then tested as events of their own. -/
def execFireWindowEnd (port : Port) (row : RowIx) (s : State) : Host.Outcome State Fault Refusal :=
  act s (s.windowOver port row) (fun s => s.updRow port row (fun r => { r with window := none }))

/-- Whether a READY port's keep-wet timer has expired (R142, R144). -/
def State.wetExpired (s : State) (h : Port) : Bool :=
  (s.ports.get h).state == .ready && (s.ports.get h).keepWet.expired s.now

/-- KEEP_WET_EXPIRY (R144). -/
def execKeepWetExpiry (port : Port) (s : State) : Host.Outcome State Fault Refusal :=
  act s (s.wetExpired port) (keepWetExpire port)

/-- Whether a deferred pulse of a READY port can be issued (R144). -/
def State.wetPulseDue (s : State) (h : Port) : Bool :=
  (s.ports.get h).state == .ready && (s.ports.get h).keepWet.deferred && s.pulseAllowed h

/-- KEEP_WET_PULSE (R144, R145): the deferred pulse at the first instant at which both conditions hold. -/
def execKeepWetPulse (port : Port) (s : State) : Host.Outcome State Fault Refusal := act s (s.wetPulseDue port) (keepWetPulse port)

/-! ### The Composer -/

/-- COMPOSE_BEGIN (R104, R105). -/
def execComposeBegin (s : State) : Host.Outcome State Fault Refusal := act s s.canCompose beginLine

/-- The blocks a composition reads and writes (R106). -/
def State.composeBlocks (s : State) (f : Composition) : List Nat :=
  f.targets.map (·.2) ++ f.targets.filterMap (fun t => s.baseBlock t.1) ++ f.patches.map (·.slot)

/-- COMPOSITION_COMPLETE (R106, R107). -/
def execCompositionComplete (s : State) : Host.Outcome State Fault Refusal :=
  match s.composer.flight with
  | some f => actOn s (s.composeBlocks f) (completeComposition f)
  | none => .next s

/-! ### The feed link -/

/-- FRAME_HEADER_RECEIVED (R162): a header arrives while the link is UP and no frame is being received. -/
def execFrameHeaderReceived (sync channel kind tag : Byte) (length : BitVec 16) (check : Byte) (s : State) :
    Host.Outcome State Fault Refusal :=
  act s (s.feed.link == .up && s.feed.incoming.isNone)
    (headerReceived (s.feed.judgeHeader sync channel kind tag length check))

/-- FRAME_RECEIVED (R163): the payload and payload check of the frame whose header passed arrive. -/
def execFrameReceived (payload : List Byte) (check : BitVec 32) (s : State) : Host.Outcome State Fault Refusal :=
  match s.feed.incoming with
  | some i =>
    act s (s.feed.link == .up && payload.length == i.length) (fun s => s.setFeed (s.feed.receive i payload check))
  | none => .next s

/-- REQUEST_TAKEN (R171). -/
def execRequestTaken (s : State) : Host.Outcome State Fault Refusal := act s s.canTake takeRequest

/-- PATCH_FRAME (R97 to R99): the pool takes one frame at a time, so it waits for a write in flight. -/
def execPatchFrame (channel : DataCh) (s : State) : Host.Outcome State Fault Refusal :=
  match takeFrame true channel s.feed.awaiting with
  | some (f, rest) => act s s.pool.writing.isNone (takePatch f rest)
  | none => .next s

/-- TEMPLATE_LINE_FRAME (R86 to R88): the store takes one frame at a time, so it waits for a write in flight. -/
def execTemplateLineFrame (channel : DataCh) (s : State) : Host.Outcome State Fault Refusal :=
  match takeFrame false channel s.feed.awaiting with
  | some (f, rest) => act s s.templates.writing.isNone (takeTemplateLine f rest)
  | none => .next s

/-- TEMPLATE_LINE_WRITE_COMPLETE (R87). -/
def execTemplateLineWriteComplete (s : State) : Host.Outcome State Fault Refusal :=
  match s.templates.writing with
  | some w => actOn s [w.block] (finishLineWrite w)
  | none => .next s

/-- CHANNEL_DRAINED (R169). -/
def execChannelDrained (channel : DataCh) (s : State) : Host.Outcome State Fault Refusal :=
  act s (s.drained channel) (closeDrained channel)

/-- CREDIT_FRAME_SENT (R165). -/
def execCreditFrameSent (s : State) : Host.Outcome State Fault Refusal :=
  match s.feed.sending with
  | some (.credit c limit) => act s (s.feed.link == .up) (creditSent c limit)
  | _ => .next s

/-- Whether a reply or a notice is being sent (R174). -/
def Feed.sendsQueued (f : Feed) : Bool := f.link == .up && (f.sending == some .reply || f.sending == some .notice)

/-- FRAME_SENT (R174). -/
def execFrameSent (s : State) : Host.Outcome State Fault Refusal := act s s.feed.sendsQueued frameSent

/-- LINK_UP (R160). -/
def execLinkUp (s : State) : Host.Outcome State Fault Refusal := act s s.trains linkUp

/-- Whether a training attempt has run 2 ms (R160). -/
def State.trainingOver (s : State) : Bool :=
  s.feed.link == .training && decide (s.feed.trainingStart + Config.trainingTicks ≤ s.now)

/-- TRAINING_TIMEOUT (R160, R161). -/
def execTrainingTimeout (s : State) : Host.Outcome State Fault Refusal := act s s.trainingOver linkDown

/-- WORD_LOCK_LOSS (R160, R161). -/
def execWordLockLoss (s : State) : Host.Outcome State Fault Refusal := act s (s.feed.link != .down) linkDown

/-! ### RESET and power -/

/-- RESET_ASSERT (R159). -/
def execResetAssert (s : State) : Host.Outcome State Fault Refusal := .next (resetState s)

/-- RESET_RELEASE (R159): the part starts from the power-on state the RESET input held. -/
def execResetRelease (s : State) : Host.Outcome State Fault Refusal := .next { s with resetHeld := false }

/-- POWER_ON (R160 and every chapter's power-on values). -/
def execPowerOn (s : State) : Host.Outcome State Fault Refusal := .next (powerOnState s)

/-- PATCH_WRITE_COMPLETE (R98). -/
def execPatchWriteComplete (s : State) : Host.Outcome State Fault Refusal :=
  match s.pool.writing with
  | some w => actOn s [w.entry.slot] (finishPatchWrite w)
  | none => .next s

end Sys2Proof.Machine
end

