-- ==== Sys2Proof/Machine/Dispatch.lean ====
section
/-! DEFINITION. Machine/Dispatch.lean: one arm per command, each one call of its meaning. -/

namespace Sys2Proof.Machine

/-- The effect of a command on everything but the queue of waiting commands. -/
def exec (i : Instr) (s : State) : Host.Outcome State Fault Refusal :=
  match i with
  | .identify tag => Sys2Proof.Machine.execIdentify tag s
  | .statusReport tag option => Sys2Proof.Machine.execStatusReport tag option s
  | .setPlane tag plane width add1 add2 add3 weakCap => Sys2Proof.Machine.execSetPlane tag plane width add1 add2 add3 weakCap s
  | .setHead tag port plane first rows nozzles d0 d1 d2 d3 f0 f1 f2 f3 window policy => Sys2Proof.Machine.execSetHead tag port plane first rows nozzles d0 d1 d2 d3 f0 f1 f2 f3 window policy s
  | .setSeam tag entry left right shift pattern => Sys2Proof.Machine.execSetSeam tag entry left right shift pattern s
  | .setNozzles tag port row first count statuses => Sys2Proof.Machine.execSetNozzles tag port row first count statuses s
  | .readNozzles tag port row first count => Sys2Proof.Machine.execReadNozzles tag port row first count s
  | .restoreHead tag port => Sys2Proof.Machine.execRestoreHead tag port s
  | .setMotion tag sense filter reverseLimit n m => Sys2Proof.Machine.execSetMotion tag sense filter reverseLimit n m s
  | .setRatio tag n m => Sys2Proof.Machine.execSetRatio tag n m s
  | .setTrigger tag input edge filter lockout => Sys2Proof.Machine.execSetTrigger tag input edge filter lockout s
  | .setKeepWet tag port interval mode => Sys2Proof.Machine.execSetKeepWet tag port interval mode s
  | .setMemoryPlan tag slots d0 d1 d2 d3 d4 d5 => Sys2Proof.Machine.execSetMemoryPlan tag slots d0 d1 d2 d3 d4 d5 s
  | .defineTemplate tag template length => Sys2Proof.Machine.execDefineTemplate tag template length s
  | .dropTemplate tag template => Sys2Proof.Machine.execDropTemplate tag template s
  | .queuePage tag template copies length gap top source patched => Sys2Proof.Machine.execQueuePage tag template copies length gap top source patched s
  | .mark tag copy value => Sys2Proof.Machine.execMark tag copy value s
  | .openChannel tag channel planes quota => Sys2Proof.Machine.execOpenChannel tag channel planes quota s
  | .closeChannel tag channel => Sys2Proof.Machine.execCloseChannel tag channel s
  | .setNotices tag mask => Sys2Proof.Machine.execSetNotices tag mask s
  | .startJob tag => Sys2Proof.Machine.execStartJob tag s
  | .stopJob tag => Sys2Proof.Machine.execStopJob tag s
  | .abort tag => Sys2Proof.Machine.execAbort tag s
  | .restart tag => Sys2Proof.Machine.execRestart tag s
  | .stopCompletion => Sys2Proof.Machine.execStopCompletion s
  | .mapSwitchComplete plane => Sys2Proof.Machine.execMapSwitchComplete plane s
  | .encoderFilterAccept => Sys2Proof.Machine.execEncoderFilterAccept s
  | .pdFilterAccept input => Sys2Proof.Machine.execPdFilterAccept input s
  | .continuousPlacement => Sys2Proof.Machine.execContinuousPlacement s
  | .headFault port => Sys2Proof.Machine.execHeadFault port s
  | .loadGrant port => Sys2Proof.Machine.execLoadGrant port s
  | .loadComplete port => Sys2Proof.Machine.execLoadComplete port s
  | .fire port row => Sys2Proof.Machine.execFire port row s
  | .fireWindowEnd port row => Sys2Proof.Machine.execFireWindowEnd port row s
  | .keepWetExpiry port => Sys2Proof.Machine.execKeepWetExpiry port s
  | .keepWetPulse port => Sys2Proof.Machine.execKeepWetPulse port s
  | .composeBegin => Sys2Proof.Machine.execComposeBegin s
  | .compositionComplete => Sys2Proof.Machine.execCompositionComplete s
  | .frameHeaderReceived sync channel kind tag length check => Sys2Proof.Machine.execFrameHeaderReceived sync channel kind tag length check s
  | .frameReceived payload check => Sys2Proof.Machine.execFrameReceived payload check s
  | .requestTaken => Sys2Proof.Machine.execRequestTaken s
  | .patchFrame channel => Sys2Proof.Machine.execPatchFrame channel s
  | .templateLineFrame channel => Sys2Proof.Machine.execTemplateLineFrame channel s
  | .templateLineWriteComplete => Sys2Proof.Machine.execTemplateLineWriteComplete s
  | .channelDrained channel => Sys2Proof.Machine.execChannelDrained channel s
  | .creditFrameSent => Sys2Proof.Machine.execCreditFrameSent s
  | .frameSent => Sys2Proof.Machine.execFrameSent s
  | .linkUp => Sys2Proof.Machine.execLinkUp s
  | .trainingTimeout => Sys2Proof.Machine.execTrainingTimeout s
  | .wordLockLoss => Sys2Proof.Machine.execWordLockLoss s
  | .resetAssert => Sys2Proof.Machine.execResetAssert s
  | .resetRelease => Sys2Proof.Machine.execResetRelease s
  | .powerOn => Sys2Proof.Machine.execPowerOn s
  | .patchWriteComplete => Sys2Proof.Machine.execPatchWriteComplete s

end Sys2Proof.Machine
end

