-- ==== Sys2Proof/Machine/Timebase.lean ====
section
/-! DEFINITION. Machine/Timebase.lean: what the part does when no command waits: the events its own state has made due, one at a
time, and then the next tick of the 100 MHz timebase. DESIGN CHOICE, notes/assumptions/2.md. -/

namespace Sys2Proof.Machine

/-! ### The events the part's own state makes due -/

/-- The events that follow from the part's state alone, in the order in which the model takes those due together: first
the ones a rule makes follow at once (R11, R68, R152, R169), then the others, which the rules let be taken in any order (R66,
R136, R158). The loads are granted after every event by which a row can join an arbiter queue at the same instant, so that
the rows which join at one instant stand in row order before one of them is granted (R132). DESIGN CHOICE,
notes/assumptions/4.md. -/
def internalEvents : List Instr :=
  [.stopCompletion, .continuousPlacement] ++ allPlanes.map .mapSwitchComplete ++ allDataCh.map .channelDrained
    ++ [.requestTaken] ++ allDataCh.map .templateLineFrame ++ allDataCh.map .patchFrame
    ++ allPorts.map .keepWetPulse ++ allPorts.flatMap (fun h => allRows.map (.fireWindowEnd h))
    ++ allPorts.flatMap (fun h => allRows.map (.fire h)) ++ allPorts.map .loadComplete ++ allPorts.map .keepWetExpiry
    ++ allPorts.map .headFault ++ [.composeBegin, .encoderFilterAccept] ++ allPds.map .pdFilterAccept ++ allPorts.map .loadGrant
    ++ [.trainingTimeout]

/-- Whether an internal event is due. Every other command comes from outside. DESIGN CHOICE, notes/assumptions/7.md and
notes/assumptions/16.md. -/
def due (s : State) : Instr → Bool
  | .stopCompletion => s.stopDone
  | .mapSwitchComplete p => switchReached s p
  | .encoderFilterAccept => s.motion.acceptReady
  | .pdFilterAccept i => (s.place.triggers.get i).input.reached
  | .continuousPlacement => s.continuousEntry.isSome
  | .headFault h => s.faultReached h
  | .loadGrant h => s.canGrant h
  | .loadComplete h => (s.loadDone h).isSome
  | .fire h k => s.canFire h k
  | .fireWindowEnd h k => s.windowOver h k
  | .keepWetExpiry h => s.wetExpired h
  | .keepWetPulse h => s.wetPulseDue h
  | .composeBegin => s.canCompose
  | .requestTaken => s.canTake
  | .patchFrame c => s.pool.writing.isNone && (takeFrame true c s.feed.awaiting).isSome
  | .templateLineFrame c => s.templates.writing.isNone && (takeFrame false c s.feed.awaiting).isSome
  | .channelDrained c => s.drained c
  | .trainingTimeout => s.trainingOver
  | _ => false

/-- The first internal event that is due. -/
def State.nextEvent (s : State) : Option Instr := if s.resetHeld then none else internalEvents.find? (due s)

/-! ### A tick of the timebase -/

/-- The stored words that fall into error at a tick (R80). DESIGN CHOICE, notes/assumptions/19.md. -/
def FrameMemory.upset (m : FrameMemory) (e : Nat × WordError) : FrameMemory :=
  if e.1 < Config.blocks * Config.blockWords then { m with errors := sparseInsert e.1 e.2 (sparseErase e.1 m.errors) } else m

/-- R38, R60: every input filter samples its pin. -/
def sampleFilters (s : State) : State :=
  let m := s.motion
  let s := s.setMotion
    { m with inputA := m.inputA.sample m.filter s.pins.a, inputB := m.inputB.sample m.filter s.pins.b }
  s.setPlace { s.place with triggers := .ofFun fun i =>
    let t := s.place.triggers.get i
    { t with input := t.input.sample (t.filter * Config.ticksPerMicrosecond) (s.pins.pd.get i) } }

/-- R39, R60: the first sample after power-on or RESET gives every filter its accepted level and the decoder its last pair. -/
def firstSample (s : State) : State :=
  let s := s.setMotion
    { s.motion with inputA := .first s.pins.a, inputB := .first s.pins.b, lastPair := (s.pins.a, s.pins.b) }
  { s.setPlace { s.place with triggers := .ofFun fun i =>
      { s.place.triggers.get i with input := .first (s.pins.pd.get i) } } with sampled := true }

/-- R127: a READY port counts consecutive asserted samples of its fault input; another port does not count. -/
def HeadPort.sampleFault (p : HeadPort) (asserted : Bool) : HeadPort :=
  if p.state = .ready then { p with faultCount := if asserted then p.faultCount + 1 else 0 } else p

/-- R127 for every port. -/
def sampleFaults (s : State) : State := s.setPorts (.ofFun fun h => (s.ports.get h).sampleFault (s.pins.fault.get h))

/-- What the outside presents at the next tick: the first waiting sample, or the present pin levels. -/
def State.nextSample (s : State) : Sample :=
  match s.inputs with
  | x :: _ => x
  | [] => ⟨s.pins, []⟩

/-- One tick of the timebase: the time moves on, the outside is sampled, and unless RESET is held (R159) the filters and
the fault counts take their samples. -/
def tick (s : State) : State :=
  let x := s.nextSample
  let s := { s with
    now := s.now + 1, pins := x.pins, inputs := s.inputs.drop 1, memory := x.upsets.foldl FrameMemory.upset s.memory }
  if s.resetHeld then s else sampleFaults (if s.sampled then sampleFilters s else firstSample s)

/-- R160: in DOWN the part begins a training attempt at once. -/
def beginTraining (s : State) : State := s.setFeed { s.feed with link := .training, trainingStart := s.now }

/-- What the part does when no command waits: it begins to train from DOWN, or takes the first internal event due, or lets
one tick pass. -/
def idleStep (s : State) : Host.Outcome State Fault Refusal :=
  if s.feed.link = .down ∧ s.resetHeld = false then .next (beginTraining s)
  else match s.nextEvent with
    | some c => exec c s
    | none => .next (tick s)

end Sys2Proof.Machine
end

