-- ==== Sys2Proof/Safety.lean ====
section
/-! DEFINITION. Safety.lean: the terms the statements use: which blocks a command leaves alone, what a reply and a notice add to the
link's queues, and the invariants of the part. -/

namespace Sys2Proof.Machine

/-! ### Frames -/

/-- The blocks of the part and, as one, the fields outside every block: the queue, the time, the pins and the RESET input. -/
inductive Block where
  | outside | job | geo | motion | place | memory | templates | pool | composer | rings | ports | counters | feed
  deriving DecidableEq, Repr

/-- Two states agree on a block. -/
def sameBlock (s t : State) : Block → Prop
  | .outside => t.pending = s.pending ∧ t.now = s.now ∧ t.pins = s.pins ∧ t.inputs = s.inputs ∧ t.sampled = s.sampled
      ∧ t.resetHeld = s.resetHeld
  | .job => t.job = s.job
  | .geo => t.geo = s.geo
  | .motion => t.motion = s.motion
  | .place => t.place = s.place
  | .memory => t.memory = s.memory
  | .templates => t.templates = s.templates
  | .pool => t.pool = s.pool
  | .composer => t.composer = s.composer
  | .rings => t.rings = s.rings
  | .ports => t.ports = s.ports
  | .counters => t.counters = s.counters
  | .feed => t.feed = s.feed

/-- Every block but those listed is unchanged. -/
def unchangedBut (bs : List Block) (s t : State) : Prop := ∀ b : Block, b ∉ bs → sameBlock s t b

/-- R164: each limit of a channel that earns credit is its received-frame count + capacity − held, and the limit of a
channel that earns none is the one it had. -/
def limitsFollow (s t : State) : Prop :=
  (t.feed.credit.get 0).limit
      = (if t.feed.link = .up then (t.feed.credit.get 0).received + 8 - BitVec.ofNat 16 t.feed.requests.length
        else (s.feed.credit.get 0).limit)
    ∧ ∀ c : DataCh, (t.feed.credit.get (linkIx c)).limit
      = if t.feed.earns c then (t.feed.credit.get (linkIx c)).received + BitVec.ofNat 16 (t.feed.channels.get c).quota
          - BitVec.ofNat 16 (t.slotsInUse c + t.framesAwaiting c)
        else (s.feed.credit.get (linkIx c)).limit

/-- R174: a waiting transmitter has made its choice; one that was sending sends on. -/
def transmitterChose (s t : State) : Prop :=
  t.feed.sending = if t.feed.link = .up ∧ s.feed.sending = none then t.feed.nextSending else s.feed.sending

/-- What the end of every event leaves of the link (R164, R174): its state, the frame being received, the notice mask, the
last frame sent, the received-frame counts and the last announced limits are unchanged; the limits follow the held
frames, and a waiting transmitter has chosen. -/
def linkKept (s t : State) : Prop :=
  t.feed.link = s.feed.link ∧ t.feed.trainingStart = s.feed.trainingStart ∧ t.feed.incoming = s.feed.incoming
    ∧ t.feed.mask = s.feed.mask ∧ t.feed.sent = s.feed.sent
    ∧ (∀ c : Fin 4, (t.feed.credit.get c).received = (s.feed.credit.get c).received
      ∧ (t.feed.credit.get c).announced = (s.feed.credit.get c).announced)
    ∧ limitsFollow s t ∧ transmitterChose s t

/-- The data channels, the reservation order and the frames received and not yet taken are unchanged. -/
def framesKept (s t : State) : Prop :=
  t.feed.channels = s.feed.channels ∧ t.feed.order = s.feed.order ∧ t.feed.requests = s.feed.requests
    ∧ t.feed.awaiting = s.feed.awaiting

/-- The reply queue is unchanged. -/
def repliesKept (s t : State) : Prop := t.feed.replies = s.feed.replies

/-- What an event announces: an increment of a counter (R175), a notice (R172) or a reply (R171). -/
inductive Sign where
  | count (c : CounterId)
  | notice (n : Notice)
  | reply (r : Reply)
  deriving DecidableEq, Repr

/-- The announcements of an event, one after another, each with its place in the order of placing that R174 compares. -/
def tell : List Sign → State → State
  | [], s => s
  | .count c :: rest, s => tell rest (bump c s)
  | .notice n :: rest, s => tell rest (placeNotice n s)
  | .reply r :: rest, s => tell rest { s with feed := { s.feed with
      replies := s.feed.replies ++ [(s.feed.placed, r)], placed := s.feed.placed + 1 } }

/-- An event announced exactly `signs`, in that order: the counters, their flags, the notice queue, the notices-lost flag and the
reply queue are those that R171, R172 and R175 give, each notice and reply in the place of its announcement. -/
def told (signs : List Sign) (s t : State) : Prop :=
  t.counters = (tell signs s).counters ∧ t.feed.notices = (tell signs s).feed.notices
    ∧ t.feed.noticesLost = (tell signs s).feed.noticesLost ∧ t.feed.replies = (tell signs s).feed.replies
    ∧ t.feed.placed = (tell signs s).feed.placed

/-- An event that announced `signs` and touched nothing else of the link. -/
def announced (signs : List Sign) (s t : State) : Prop := linkKept s t ∧ framesKept s t ∧ told signs s t

/-- A request was answered after announcing `signs`: the link's queues gained those notices and then the reply, alone. -/
def answeredAfter (signs : List Sign) (s t : State) (tag code : Byte) (result : Result) (body : List Byte) : Prop :=
  announced (signs ++ [.reply ⟨tag, code, result, body⟩]) s t

/-- A request was answered and announced nothing: the link's queues gained the reply alone. -/
def answered (s t : State) (tag code : Byte) (result : Result) (body : List Byte) : Prop :=
  answeredAfter [] s t tag code result body

/-- A request was answered with an empty body and changed nothing. -/
def refused (s t : State) (tag code : Byte) (result : Result) : Prop :=
  unchangedBut [.feed] s t ∧ answered s t tag code result []

/-- A command can act: the RESET input is not held. -/
abbrev awake (s : State) : Prop := s.resetHeld = false

/-- A request command can be handled: the RESET input is not held and the reply queue has a free entry (R171). -/
abbrev ready (s : State) : Prop := s.resetHeld = false ∧ s.feed.replies.length < Config.replyEntries

/-- The two parts of the state no command of a job may change: the configuration of R15. -/
def configurationKept (s t : State) : Prop :=
  t.geo.planes = s.geo.planes ∧ t.geo.heads = s.geo.heads ∧ t.geo.seams = s.geo.seams ∧ t.memory.plan = s.memory.plan
    ∧ t.motion.sense = s.motion.sense ∧ t.motion.filter = s.motion.filter ∧ t.motion.reverseLimit = s.motion.reverseLimit
    ∧ ∀ i : PdIx, (t.place.triggers.get i).edge = (s.place.triggers.get i).edge
      ∧ (t.place.triggers.get i).filter = (s.place.triggers.get i).filter
      ∧ (t.place.triggers.get i).lockout = (s.place.triggers.get i).lockout

/-- The requests of R15. -/
def isConfiguration : Request → Bool
  | .setPlane .. => true
  | .setHead .. => true
  | .setSeam .. => true
  | .setMotion .. => true
  | .setTrigger .. => true
  | .setMemoryPlan .. => true
  | .restoreHead _ => true
  | _ => false

/-- The command that carries a request with a tag. -/
def commandOf (tag : Byte) : Request → Instr
  | .identify => .identify tag
  | .statusReport o => .statusReport tag o
  | .setPlane p w a b c k => .setPlane tag p w a b c k
  | .setHead h p c r n d0 d1 d2 d3 f0 f1 f2 f3 w y => .setHead tag h p c r n d0 d1 d2 d3 f0 f1 f2 f3 w y
  | .setSeam e l r sh pat => .setSeam tag e l r sh pat
  | .setNozzles h k n c st => .setNozzles tag h k n c st
  | .readNozzles h k n c => .readNozzles tag h k n c
  | .restoreHead h => .restoreHead tag h
  | .setMotion se f r n m => .setMotion tag se f r n m
  | .setRatio n m => .setRatio tag n m
  | .setTrigger i e f l => .setTrigger tag i e f l
  | .setKeepWet h i m => .setKeepWet tag h i m
  | .setMemoryPlan sl d0 d1 d2 d3 d4 d5 => .setMemoryPlan tag sl d0 d1 d2 d3 d4 d5
  | .defineTemplate t l => .defineTemplate tag t l
  | .dropTemplate t => .dropTemplate tag t
  | .queuePage t c l g o sr pt => .queuePage tag t c l g o sr pt
  | .mark c v => .mark tag c v
  | .openChannel c p q => .openChannel tag c p q
  | .closeChannel c => .closeChannel tag c
  | .setNotices m => .setNotices tag m
  | .startJob => .startJob tag
  | .stopJob => .stopJob tag
  | .abort => .abort tag
  | .restart => .restart tag

/-- The range tests of the configuration requests (R15 test 1), field by field in the numbers of R1 to R3, R6, R14, R36, R58, R78
and the codes of section 11.3. -/
def outOfRange : Request → Bool
  | .setPlane p w a b c k =>
    decide (5 < p.toNat ∨ 16384 < w.toNat ∨ 3 < a.toNat ∨ 3 < b.toNat ∨ 3 < c.toNat ∨ 3 < k.toNat)
  | .setHead h p c r n d0 d1 d2 d3 _ _ _ _ w y =>
    decide (11 < h.toNat ∨ (5 < p.toNat ∧ p.toNat ≠ 255) ∨ 16383 < c.toNat ∨ r.toNat = 0 ∨ 4 < r.toNat ∨ n.toNat < 8
      ∨ 768 < n.toNat ∨ n.toNat % 8 ≠ 0 ∨ 60000 < d0.toNat ∨ (1 < r.toNat ∧ 60000 < d1.toNat)
      ∨ (2 < r.toNat ∧ 60000 < d2.toNat) ∨ (3 < r.toNat ∧ 60000 < d3.toNat) ∨ w.toNat < 100 ∨ 1 < y.toNat)
  | .setSeam e l r sh _ => decide (15 < e.toNat ∨ (11 < l.toNat ∧ l.toNat ≠ 255) ∨ 11 < r.toNat ∨ 63 < sh.toNat)
  | .setMotion se _ _ n m => decide (1 < se.toNat ∨ m.toNat = 0 ∨ n.toNat = 0 ∨ m.toNat < n.toNat)
  | .setTrigger i e _ _ => decide (3 < i.toNat ∨ 3 < e.toNat)
  | .setMemoryPlan sl d0 d1 d2 d3 d4 d5 =>
    decide (sl.toNat = 0 ∨ d0.toNat = 1 ∨ d1.toNat = 1 ∨ d2.toNat = 1 ∨ d3.toNat = 1 ∨ d4.toNat = 1 ∨ d5.toNat = 1)
  | .restoreHead h => decide (11 < h.toNat)
  | _ => false

/-- The pins that tick `n` from now samples, counted from 0: those of the samples that wait, one for each tick, and after them the last of
them, or the pins as they are where none waits. -/
def State.pinsAt (s : State) (n : Nat) : Pins :=
  (s.inputs.map (·.pins)).getD n ((s.inputs.getLast?.map (·.pins)).getD s.pins)

/-- A hold after `n + 1` samples more at the new level (R38, R60): the samples since the one that started it. -/
def InputFilter.heldFor (x : InputFilter) (n : Nat) : Nat := match x.hold with | some k => k + 1 + n | none => n

/-- Of the Motion Unit, the Placement Unit and the ports at most the input filters and the fault counts differ. -/
def onlySampled (s t : State) : Prop :=
  t.motion = { s.motion with inputA := t.motion.inputA, inputB := t.motion.inputB }
    ∧ t.place = { s.place with triggers := t.place.triggers }
    ∧ (∀ i : PdIx, t.place.triggers.get i = { s.place.triggers.get i with input := (t.place.triggers.get i).input })
    ∧ ∀ h : Port, t.ports.get h = { s.ports.get h with faultCount := (t.ports.get h).faultCount }

/-- `n` ticks of the timebase with no command and no event between them. -/
def ticks : Nat → State → State
  | 0, s => s
  | n + 1, s => tick (ticks n s)

/-- Whether nozzle `n` of row `k` of head `g` is one of the `count` nozzles from `first` of row `row` of head `h`. -/
def inRun (h : Port) (row first count : Nat) (g : Port) (k : RowIx) (n : Nat) : Bool :=
  decide (g = h ∧ k.val = row ∧ first ≤ n ∧ n < first + count)

/-- The status a code of section 11.3 names; LIVE stands for every other byte. -/
def statusNamed (b : Byte) : NozzleStatus := [NozzleStatus.live, .weak, .out].getD b.toNat .live

/-! ### The Start Job checks in the words of R16 to R19 -/

/-- The plane is configured (R1). -/
abbrev isUsed (g : Geometry) (p : Plane) : Prop := (g.planes.get p).width ≠ 0

/-- The head's plane field names the plane (R3). -/
abbrev isOn (g : Geometry) (p : Plane) (h : Port) : Prop := (g.heads.get h).plane = some p

/-- The last column of a head's span (R5). -/
def lastColumn (g : Geometry) (h : Port) : Nat := (g.heads.get h).first + (g.heads.get h).rows * (g.heads.get h).nozzles - 1

/-- A head of the plane spans the column. -/
abbrev reaches (g : Geometry) (p : Plane) (h : Port) (c : Nat) : Prop :=
  isOn g p h ∧ (g.heads.get h).first ≤ c ∧ c ≤ lastColumn g h

/-- R16, NO_HEAD: a configured plane with no head in use. -/
abbrev isHeadless (g : Geometry) (p : Plane) : Prop := isUsed g p ∧ ∀ h : Port, ¬isOn g p h

/-- R17, GAP: the lowest column below the width in no span. -/
abbrev isGap (g : Geometry) (p : Plane) (c : Nat) : Prop :=
  c < (g.planes.get p).width ∧ (∀ h : Port, ¬reaches g p h c) ∧ ∀ b < c, ∃ h : Port, reaches g p h b

/-- R17, TRIPLE: a column of a configured plane in the spans of three heads or more. -/
abbrev isTriple (g : Geometry) (p : Plane) (c : Nat) : Prop :=
  isUsed g p ∧ ∃ a : Port, reaches g p a c ∧ ∃ b : Port, a < b ∧ reaches g p b c ∧ ∃ d : Port, b < d ∧ reaches g p d c

/-- A non-empty seam entry names the two heads, in either order. -/
abbrev isNamed (g : Geometry) (e : SeamIx) (a b : Port) : Prop :=
  ((g.seams.get e).left = some a ∧ (g.seams.get e).right = b) ∨ ((g.seams.get e).left = some b ∧ (g.seams.get e).right = a)

/-- R18 condition 1: two heads of the plane meet, and no entry names them. -/
abbrev isBare (g : Geometry) (p : Plane) (a b : Port) : Prop :=
  isOn g p a ∧ isOn g p b ∧ a < b ∧ (g.heads.get a).first ≤ lastColumn g b ∧ (g.heads.get b).first ≤ lastColumn g a
    ∧ ∀ e : SeamIx, ¬isNamed g e a b

/-- R18 condition 2: an entry that names a head of the plane and is bad. -/
abbrev isBad (g : Geometry) (p : Plane) (e : SeamIx) : Prop :=
  ∃ l ∈ (g.seams.get e).left, (isOn g p l ∨ isOn g p (g.seams.get e).right)
    ∧ (¬(isOn g p l ∧ isOn g p (g.seams.get e).right) ∨ l = (g.seams.get e).right
      ∨ (g.heads.get (g.seams.get e).right).first ≤ (g.heads.get l).first
      ∨ lastColumn g l < (g.heads.get (g.seams.get e).right).first ∨ lastColumn g (g.seams.get e).right ≤ lastColumn g l
      ∨ 64 < lastColumn g l - (g.heads.get (g.seams.get e).right).first + 1)

/-- R18 condition 3: an entry that names a head in use on some plane, and the same pair as a later entry. -/
abbrev isTwice (g : Geometry) (e : SeamIx) : Prop :=
  ∃ l ∈ (g.seams.get e).left, (∃ q : Plane, isUsed g q ∧ (isOn g q l ∨ isOn g q (g.seams.get e).right))
    ∧ ∃ d : SeamIx, e < d ∧ isNamed g d l (g.seams.get e).right

/-- The lower port of an entry's two heads. -/
def lowerPort (g : Geometry) (e : SeamIx) : Nat :=
  match (g.seams.get e).left with
  | some l => min l.val (g.seams.get e).right.val
  | none => 0

/-- R18: the plane passes SEAM. -/
abbrev isSewn (g : Geometry) (p : Plane) : Prop :=
  (∀ a b : Port, ¬isBare g p a b) ∧ (∀ e : SeamIx, ¬isBad g p e) ∧ ∀ e : SeamIx, ¬isTwice g e

/-- A row of a head in use on the plane. -/
abbrev hasRow (g : Geometry) (p : Plane) (h : Port) (k : RowIx) : Prop :=
  isUsed g p ∧ isOn g p h ∧ k.val < (g.heads.get h).rows

/-- The offset D of a row. -/
def offsetOf (g : Geometry) (h : Port) (k : RowIx) : Nat := (g.heads.get h).d.get k

/-- R19, DEPTH: the ring is less deep than the D of a row of the plane less the D of some row in use, plus 2. -/
abbrev isShallow (s : State) (p : Plane) : Prop :=
  ∃ (h : Port) (j : RowIx), hasRow s.geo p h j ∧ ∃ (q : Plane) (f : Port) (k : RowIx), hasRow s.geo q f k
    ∧ s.memory.depth p + offsetOf s.geo f k < offsetOf s.geo h j + 2

/-- R16, OFFLINE: a head in use on the plane is OFFLINE. -/
abbrev isAway (s : State) (p : Plane) (h : Port) : Prop := isUsed s.geo p ∧ isOn s.geo p h ∧ (s.ports.get h).state = .offline

/-- R16: the first four checks pass. -/
abbrev passes4 (s : State) : Prop :=
  (∃ p : Plane, isUsed s.geo p) ∧ (∀ p : Plane, ¬isHeadless s.geo p) ∧ s.motion.ratio ≠ none ∧ s.memory.plan ≠ none

/-- R16: the first five checks pass. -/
abbrev passes5 (s : State) : Prop :=
  passes4 s ∧ ∀ p : Plane, ∀ c < (s.geo.planes.get p).width, ∃ h : Port, reaches s.geo p h c

/-- R16: the first six checks pass. No span has a column above 16,383 + 4 × 768 (R3). -/
abbrev passes6 (s : State) : Prop := passes5 s ∧ ∀ p : Plane, ∀ c < 19456, ¬isTriple s.geo p c

/-- R16: the first seven checks pass. -/
abbrev passes7 (s : State) : Prop := passes6 s ∧ ∀ p : Plane, isUsed s.geo p → isSewn s.geo p

/-- R16: the first eight checks pass. -/
abbrev passes8 (s : State) : Prop := passes7 s ∧ ∀ p : Plane, ¬isShallow s p

/-! ### Encoder counts and boundaries -/

/-- The forward successor of a pair (A, B), by the table of R40. -/
def successor : Sense → Bool × Bool → Bool × Bool
  | .aLeads, (false, false) => (true, false)
  | .aLeads, (true, false) => (true, true)
  | .aLeads, (true, true) => (false, true)
  | .aLeads, (false, true) => (false, false)
  | .bLeads, (false, false) => (false, true)
  | .bLeads, (true, false) => (false, false)
  | .bLeads, (true, true) => (true, false)
  | .bLeads, (false, true) => (true, true)

/-- The filter of an input once its change is accepted, or as it was when its hold has not reached the setting (R38). -/
def InputFilter.taken (x : InputFilter) : InputFilter := if x.reached = true then ⟨!x.level, none, false⟩ else x

/-- The Motion Unit once the changes held for F ticks are accepted, before the count they make is taken (R38, R40). -/
def Motion.taken (m : Motion) : Motion :=
  { m with inputA := m.inputA.taken, inputB := m.inputB.taken, lastPair := (m.inputA.taken.level, m.inputB.taken.level) }

/-- Exactly one input's change is accepted and it makes a forward count (R40). -/
def isForward (m : Motion) : Prop := m.inputA.reached ≠ m.inputB.reached ∧ m.taken.lastPair = successor m.sense m.lastPair

/-- Exactly one input's change is accepted and it makes a reverse count (R40). -/
def isReverse (m : Motion) : Prop := m.inputA.reached ≠ m.inputB.reached ∧ m.taken.lastPair ≠ successor m.sense m.lastPair

/-- R52: the Motion Unit after a boundary that leaves the accumulator at `acc` under the ratio `old`. -/
def Motion.rescaled (m : Motion) (old : Ratio) (acc : Nat) : Motion :=
  match m.pendingRatio with
  | some r => { m with acc := acc * r.m / old.m, ratio := some r, pendingRatio := none }
  | none => { m with acc := acc }

/-- A print tick is about to be made: a forward count in a job fills a line and takes P past H (R44, R46). -/
def tickDue (s : State) : Prop :=
  isForward s.motion ∧ s.job.state ≠ .idle ∧ s.motion.p = s.motion.h ∧ ∃ r ∈ s.motion.ratio, r.m ≤ s.motion.acc + r.n

/-- The row once its previous line, if it has one, is forced or skipped at a print tick (R134). -/
def Row.settled (r : Row) (now window : Nat) : Row :=
  if r.due = none then r
  else if r.load = .loaded ∧ r.window = none then
    { r with load := .empty, line := none, due := none, window := some (now + window), latched := r.data }
  else { r with
    load := .empty, line := none, due := none,
    release := match r.line with | some l => max r.release l.serial | none => r.release }

/-- The row once it gives up its pending line with an ABANDONED report (R128, R140). -/
def Row.abandoned (r : Row) : Row :=
  { r with
    load := .empty, line := none, due := none,
    release := match r.line with | some l => max r.release l.serial | none => r.release }

/-- The row once the job has entered HALTED (R140): a prefetched line still QUEUED is given up without a report. -/
def Row.halted (r : Row) : Row :=
  if r.load = .queued ∧ r.due = none then { r with load := .empty, line := none, due := none } else r.abandoned

/-! ### The reservation order and the IDLE entry -/

/-- The quotas reserved by the channels in PENDING, OPEN or DRAINING (R166). -/
def reservedBy (ch : Table 3 Channel) : Nat :=
  allDataCh.foldl (fun n c => if (ch.get c).state.reserves then n + (ch.get c).quota else n) 0

/-- The sum of the quotas of a list of channels. -/
def quotaSum (ch : Table 3 Channel) (cs : List DataCh) : Nat := cs.foldl (fun n c => n + (ch.get c).quota) 0

/-- R168: the reservation order served from its head: the channels `done` fit and go to PENDING, and the first of the `rest`
does not fit. -/
def servedAs (slots : Nat) (before after : Table 3 Channel) (order rest done : List DataCh) : Prop :=
  order = done ++ rest
    ∧ (∀ c : DataCh, after.get c = if c ∈ done then { before.get c with state := .pending } else before.get c)
    ∧ (done ≠ [] → reservedBy before + quotaSum before done ≤ slots)
    ∧ ∀ c ∈ rest.head?, slots < reservedBy before + quotaSum before done + (before.get c).quota

/-- The front of an order of which `rest` is left. -/
def servedFront (order rest : List DataCh) : List DataCh := order.take (order.length - rest.length)

/-- The CHANNEL STATE notices of channels that go to PENDING. -/
def pendingSigns (done : List DataCh) : List Sign := done.map (fun c => .notice (.channelState c .pending))

/-- R168: the channels at the front of a reservation order whose quotas fit in the pool slots beside the quotas `used`. -/
def fitting (slots : Nat) (ch : Table 3 Channel) : Nat → List DataCh → List DataCh
  | _, [] => []
  | used, c :: rest =>
    if used + (ch.get c).quota ≤ slots then c :: fitting slots ch (used + (ch.get c).quota) rest else []

/-- R168, R169: the channels of a list closed one after another, the reservation order served after each: what is left of the
channels and of the order, and the CHANNEL STATE notices. -/
def closedInTurn (slots : Nat) :
    List DataCh → Table 3 Channel → List DataCh → Table 3 Channel × List DataCh × List Sign
  | [], ch, order => (ch, order, [])
  | c :: rest, ch, order =>
    let closed := ch.put c { ch.get c with state := .closed }
    let done := fitting slots closed (reservedBy closed) order
    let left := closedInTurn slots rest
      (.ofFun fun d => if d ∈ done then { closed.get d with state := .pending } else closed.get d) (order.drop done.length)
    (left.1, left.2.1, .notice (.channelState c .closed) :: pendingSigns done ++ left.2.2)

/-- The MAP SWITCHED notices of the switches that complete at an IDLE entry, in plane order (R153). -/
def switchSigns (s : State) : List Sign :=
  (allPlanes.filter (fun p => (s.geo.switches.get p).pending)).map (fun p => .notice (.mapSwitched p))

/-- R153: what each block clears at an IDLE entry, and what it keeps. -/
def idleCleared (s t : State) : Prop :=
  t.motion = { s.motion with
      acc := 0, p := 0, h := 0, lastBoundary := none, period := none, pendingRatio := none,
      ratio := if s.motion.pendingRatio.isSome then s.motion.pendingRatio else s.motion.ratio }
    ∧ t.place = { s.place with list := [] }
    ∧ t.composer = ⟨[], 0, 0, 0, 0, [], none⟩ ∧ t.pool = ⟨[], none⟩
    ∧ (∀ p : Plane, t.rings.get p = ⟨[], 0, -1, -1⟩)
    ∧ (∀ h : Port, t.ports.get h = { s.ports.get h with rows := (t.ports.get h).rows, arbiter := [] }
      ∧ ∀ k : RowIx, t.row h k = { s.row h k with load := .empty, line := none, due := none })
    ∧ t.geo = { s.geo with active := t.geo.active, switches := t.geo.switches }
    ∧ (∀ p : Plane, t.geo.switches.get p = { s.geo.switches.get p with pending := false })
    ∧ (∀ (h : Port) (k : RowIx) (n : Fin 768), nozzleStatus t.geo.active h k.val n.val =
        if (∃ p ∈ s.planeOf h, (s.geo.switches.get p).pending = true) then nozzleStatus s.geo.staged h k.val n.val
        else nozzleStatus s.geo.active h k.val n.val)
    ∧ t.memory = s.memory

/-! ### Reads and the loss of the link -/

/-- R80: the counts of the words in error that a read of a block meets, in word order. `need w` says whether word `w` of the
block, 0 to 511, is read. -/
def errorSigns (s : State) (block : Nat) (need : Nat → Bool) : List Sign :=
  (s.memory.errors.filter (fun e => decide (512 * block ≤ e.1 ∧ e.1 < 512 * (block + 1)) && need (e.1 - 512 * block))).map
    (fun e => .count (if e.2 = .single then .correctedWords else .uncorrectableWords))

/-- R160, R161: after `signs` the link has gone DOWN and begun to train: what was being received or sent is discarded, every
count and limit is 0, each OPEN channel is PENDING with its notice, and the queues stand. -/
def linkDropped (signs : List Sign) (s t : State) : Prop :=
  unchangedBut [.counters, .feed] s t
    ∧ t.feed.link = .training ∧ t.feed.trainingStart = s.now ∧ t.feed.incoming = none ∧ t.feed.sending = none
    ∧ (∀ c : Fin 4, t.feed.credit.get c = ⟨0, 0, 0⟩)
    ∧ (∀ c : DataCh, t.feed.channels.get c =
        if (s.feed.channels.get c).state = .opened then { s.feed.channels.get c with state := .pending } else s.feed.channels.get c)
    ∧ t.feed.order = s.feed.order ∧ t.feed.requests = s.feed.requests ∧ t.feed.awaiting = s.feed.awaiting
    ∧ t.feed.replies = s.feed.replies ∧ t.feed.mask = s.feed.mask ∧ t.feed.sent = s.feed.sent
    ∧ told (signs ++ pendingSigns (allDataCh.filter (fun c => decide ((s.feed.channels.get c).state = .opened)))) s t

/-- What R120 and R121 leave of a plane's ring after a release: with participating rows the retire point is the least of their
release serials and the entries at or below it are gone; with none both stand. The write position does not move. -/
def retiredTo (p : Plane) (s t : State) : Prop :=
  (t.rings.get p).writePosition = (s.rings.get p).writePosition
    ∧ (t.rings.get p).entries = (s.rings.get p).entries.filter (fun e => decide ((t.rings.get p).retire < (e.serial : Int)))
    ∧ (if t.participating p = [] then (t.rings.get p).retire = (s.rings.get p).retire
      else (∀ r ∈ t.participating p, (t.rings.get p).retire ≤ (t.row r.1 r.2).release)
        ∧ ∃ r ∈ t.participating p, (t.rings.get p).retire = (t.row r.1 r.2).release)

/-- Every row but row `k` of port `h` is unchanged, and of port `h` beside its rows at most the arbiter queue and the keep-wet
timer. -/
def otherRowsKept (h : Port) (k : RowIx) (s t : State) : Prop :=
  (∀ g : Port, g ≠ h → t.ports.get g = s.ports.get g) ∧ (∀ j : RowIx, j ≠ k → t.row h j = s.row h j)
    ∧ (t.ports.get h).state = (s.ports.get h).state ∧ (t.ports.get h).faultCount = (s.ports.get h).faultCount

/-- Frame memory outside the blocks `bs` is unchanged: its bytes, its words in error and the plan. -/
def memoryKeptBut (bs : List Nat) (s t : State) : Prop :=
  (∀ a : Nat, a / 4096 ∉ bs → t.memory.byte a = s.memory.byte a)
    ∧ (∀ w : Nat, w / 512 ∉ bs → t.memory.errorAt w = s.memory.errorAt w) ∧ t.memory.plan = s.memory.plan

/-! ### Invariants -/

/-- R36: a pair that may be a ratio. -/
abbrev ratioOk (r : Ratio) : Prop := 1 ≤ r.n ∧ r.n ≤ r.m ∧ r.m ≤ 16777215

/-- R36, R40, R43, R46, R54: the ratios lie in their ranges, the accumulator below M, P at or below H and H at or above 0; a
job has a ratio; the last pair is that of the accepted levels; in IDLE everything a job moves is at rest. -/
abbrev motionOk (s : State) : Prop :=
  (∀ r ∈ s.motion.ratio, ratioOk r ∧ s.motion.acc < r.m) ∧ (∀ r ∈ s.motion.pendingRatio, ratioOk r)
    ∧ s.motion.p ≤ s.motion.h ∧ 0 ≤ s.motion.h
    ∧ (s.job.state ≠ .idle → s.motion.ratio.isSome)
    ∧ s.motion.lastPair = (s.motion.inputA.level, s.motion.inputB.level)
    ∧ (s.job.state = .idle → s.motion.acc = 0 ∧ s.motion.p = 0 ∧ s.motion.h = 0 ∧ s.motion.lastBoundary = none
        ∧ s.motion.period = none ∧ s.motion.pendingRatio = none)

/-- R61, R92, R102, R171, R172: the bounded queues and lists keep their bounds. -/
abbrev queuesOk (s : State) : Prop :=
  s.feed.notices.length ≤ 32 ∧ s.feed.replies.length ≤ 8 ∧ s.composer.pages.length ≤ 32
    ∧ s.place.list.length ≤ 64 ∧ s.composer.marks.length ≤ 16

/-- The canonical forms: the frame memory, the two nozzle maps and the list of words in error. -/
abbrev storesOk (s : State) : Prop :=
  s.memory.wf = true ∧ keysRise s.memory.errors = true ∧ sparseWf .live s.geo.active = true
    ∧ sparseWf .live s.geo.staged = true

/-- R1, R3, R6: every plane record, head record and seam entry holds values of its ranges, and no nozzle map lists a position
outside the 12 × 4 × 768 of R7. -/
abbrev recordsOk (s : State) : Prop :=
  (∀ p : Plane, let r := s.geo.planes.get p
      r.width ≤ 16384 ∧ r.add1 ≤ 3 ∧ r.add2 ≤ 3 ∧ r.add3 ≤ 3 ∧ r.weakCap ≤ 3)
    ∧ (∀ h : Port, let r := s.geo.heads.get h
      r.first ≤ 16383 ∧ 1 ≤ r.rows ∧ r.rows ≤ 4 ∧ 8 ≤ r.nozzles ∧ r.nozzles ≤ 768 ∧ r.nozzles % 8 = 0 ∧ 100 ≤ r.window
        ∧ r.window ≤ 65535 ∧ ∀ k : RowIx, r.d.get k ≤ 60000 ∧ r.f.get k ≤ 255)
    ∧ (∀ e : SeamIx, (s.geo.seams.get e).shift ≤ 63)
    ∧ (∀ e ∈ s.geo.active, e.1 < 36864) ∧ ∀ e ∈ s.geo.staged, e.1 < 36864

/-- R95: every template a Page Queue entry names is COMPLETE. -/
abbrev pagesOk (s : State) : Prop :=
  ∀ e ∈ s.composer.pages, ∀ t ∈ e.template, (s.templates.records.get t).state = .complete

/-- R166: the quotas reserved never together exceed the pool slots. -/
abbrev reservationsOk (s : State) : Prop := s.feed.reserved ≤ s.memory.slots

/-- R168: the reservation order holds each WAITING channel once and no other. -/
abbrev orderOk (s : State) : Prop :=
  s.feed.order.Nodup ∧ ∀ c : DataCh, c ∈ s.feed.order ↔ (s.feed.channels.get c).state = .waiting

/-- R130, R132: a row has a pending line exactly when it is not EMPTY, a due time only with a pending line; the arbiter
queue holds each QUEUED row once and no other; at most one row of a port is LOADING. -/
abbrev portOk (q : HeadPort) : Prop :=
  q.arbiter.Nodup
    ∧ (∀ k : RowIx, (k ∈ q.arbiter ↔ (q.rows.get k).load = .queued)
      ∧ ((q.rows.get k).line.isSome ↔ (q.rows.get k).load ≠ .empty)
      ∧ ((q.rows.get k).due.isSome → (q.rows.get k).line.isSome))
    ∧ (∀ j k : RowIx, (q.rows.get j).load = .loading → (q.rows.get k).load = .loading → j = k)

/-- R132: the rows of an arbiter queue stand in the order in which they joined it, those that joined at one instant in row order. -/
abbrev joinsOk (now : Nat) (q : HeadPort) : Prop :=
  q.arbiter.Pairwise (fun j k => (q.rows.get j).joined < (q.rows.get k).joined
      ∨ ((q.rows.get j).joined = (q.rows.get k).joined ∧ j < k))
    ∧ ∀ k ∈ q.arbiter, (q.rows.get k).joined ≤ now

/-- `portOk` and `joinsOk` for every port. -/
abbrev rowsOk (s : State) : Prop := ∀ h : Port, portOk (s.ports.get h) ∧ joinsOk s.now (s.ports.get h)

/-- R113, R120: every held serial is above its plane's retire point, and in a job the retire point is at or below the
release serial of every participating row. -/
abbrev ringsOk (s : State) : Prop :=
  ∀ p : Plane, (∀ e ∈ (s.rings.get p).entries, (s.rings.get p).retire < (e.serial : Int))
    ∧ (s.job.state ≠ .idle → ∀ r ∈ s.participating p, (s.rings.get p).retire ≤ (s.row r.1 r.2).release)

/-- R120: in a job the retire point of a plane with participating rows is the release serial of one of them: with `ringsOk`, the
least. -/
abbrev retireOk (s : State) : Prop :=
  s.job.state ≠ .idle → ∀ p : Plane, s.participating p = []
    ∨ ∃ r ∈ s.participating p, (s.rings.get p).retire = (s.row r.1 r.2).release

/-- R153: in IDLE no placement, no composition, no ring entry, no pending switch and no pending line stands. -/
abbrev idleOk (s : State) : Prop :=
  s.job.state = .idle →
    s.place.list = [] ∧ s.composer.flight = none ∧ (∀ p : Plane, s.rings.get p = Ring.emptied)
      ∧ (∀ p : Plane, (s.geo.switches.get p).pending = false)
      ∧ ∀ h : Port, (s.ports.get h).arbiter = []
        ∧ ∀ k : RowIx, (s.row h k).load = .empty ∧ (s.row h k).line = none ∧ (s.row h k).due = none

/-- R160, R161: frames are received and sent only while the link is UP, a data channel is OPEN only then, and while the
link is not UP every count and limit is 0. -/
abbrev linkOk (s : State) : Prop :=
  s.feed.link ≠ .up →
    s.feed.incoming = none ∧ s.feed.sending = none ∧ (∀ c : DataCh, (s.feed.channels.get c).state ≠ .opened)
      ∧ ∀ c : Fin 4, s.feed.credit.get c = ⟨0, 0, 0⟩

/-- The frames and slots that hold a data channel's credit (R164). -/
def State.held (s : State) (c : DataCh) : Nat := s.slotsInUse c + s.framesAwaiting c

/-- R164, R171: each limit of a channel that earns credit is its received-frame count + capacity − held, and the control
request queue never holds more than 8 requests. -/
abbrev creditOk (s : State) : Prop :=
  (s.feed.link = .up → (s.feed.credit.get 0).limit
      = (s.feed.credit.get 0).received + 8 - BitVec.ofNat 16 s.feed.requests.length)
    ∧ (∀ c : DataCh, s.feed.earns c = true → (s.feed.credit.get (linkIx c)).limit
        = (s.feed.credit.get (linkIx c)).received + BitVec.ofNat 16 (s.feed.channels.get c).quota
          - BitVec.ofNat 16 (s.held c))
    ∧ s.feed.requests.length ≤ 8
    ∧ (∀ i ∈ s.feed.incoming, i.kind = .request → s.feed.requests.length < 8)

/-- The frames of a data channel whose payload is to come: one or none. -/
def State.arriving (s : State) (c : DataCh) : Nat :=
  match s.feed.incoming with
  | some i => if i.kind.channel = some c then 1 else 0
  | none => 0

/-- The credit the host still holds on a data channel: limit − received, modulo 65,536. -/
def State.unused (s : State) (c : DataCh) : Nat :=
  ((s.feed.credit.get (linkIx c)).limit - (s.feed.credit.get (linkIx c)).received).toNat

/-- R166: the quota of a channel with a reservation bounds what it holds and the credit outstanding together, so its
slots in use never exceed its quota; a channel without one holds at most the one frame that was arriving. -/
abbrev quotasOk (s : State) : Prop :=
  ∀ c : DataCh,
    if (s.feed.channels.get c).state.reserves then
      s.held c + s.unused c ≤ (s.feed.channels.get c).quota ∧ (s.feed.channels.get c).quota ≤ 65535
        ∧ (0 < s.arriving c → 0 < s.unused c)
    else s.held c + s.arriving c ≤ 1
      ∧ ((s.feed.channels.get c).state = .waiting →
          1 ≤ (s.feed.channels.get c).quota ∧ (s.feed.channels.get c).quota ≤ 65535)

/-- A free-extent list as R84 has it: no empty extent, in address order, none overlapping and none adjacent. -/
def extentsOk : List Extent → Bool
  | [] => true
  | [e] => decide (0 < e.blocks)
  | e :: f :: rest => decide (0 < e.blocks) && decide (e.first + e.blocks < f.first) && extentsOk (f :: rest)

/-- Whether a block lies in an extent. -/
def Extent.has (e : Extent) (block : Nat) : Bool := decide (e.first ≤ block ∧ block < e.first + e.blocks)

/-- Whether a block lies in one of a list of extents. -/
def inExtents (es : List Extent) (block : Nat) : Bool := es.any (fun e => e.has block)

/-- Ring entries in strictly increasing serial order (R113). -/
def serialsRise : List RingEntry → Bool
  | [] => true
  | [_] => true
  | e :: f :: rest => decide (e.serial < f.serial) && serialsRise (f :: rest)

/-! ### The lists of a job -/

/-- R61, R62: the placements stand in increasing order, each starting no earlier than its predecessor's start plus length plus gap,
the last one's end with its gap being the floor; their copies are consecutive, end below the next one to place, and are
queued copies. -/
abbrev placesOk (s : State) : Prop :=
  let u := s.place
  u.list.Pairwise (fun a b : Placement => a.start + a.length + a.gap ≤ b.start)
    ∧ (∀ q ∈ u.list.getLast?, q.start + q.length + q.gap = u.floor)
    ∧ u.list.length ≤ u.nextSequence
    ∧ u.list.map (·.copy) = (List.range u.list.length).map (· + (u.nextSequence - u.list.length))
    ∧ ∀ q ∈ u.list, 1 ≤ q.length ∧ q.copy < s.composer.nextSequence

/-- R92: page entries one after another in copy sequence and in serial, of at least one copy and one line each, the last one
ending at the next copy sequence and the next serial. -/
def pagesFollow (nextSequence nextSerial : Nat) : List PageEntry → Bool
  | [] => true
  | [e] => decide (1 ≤ e.copies ∧ 1 ≤ e.length ∧ e.first + e.copies = nextSequence ∧ e.base + e.copies * e.length = nextSerial)
  | e :: f :: rest =>
    decide (1 ≤ e.copies ∧ 1 ≤ e.length ∧ e.first + e.copies = f.first ∧ e.base + e.copies * e.length = f.base)
      && pagesFollow nextSequence nextSerial (f :: rest)

/-- The first copy still queued, or the next copy sequence when none is. -/
def Composer.front (c : Composer) : Nat := match c.pages with | e :: _ => e.first | [] => c.nextSequence

/-- R92, R101, R102, R105: the queued pages are consecutive; the compose position is a line of a queued copy, or line 0 of the copy to
be queued next; the mark table holds the queued copies of the window in order, each with a mark within its length; a
composition in flight is of a running job and has one target for each configured plane. -/
abbrev composerOk (s : State) : Prop :=
  let c := s.composer
  pagesFollow c.nextSequence c.nextSerial c.pages = true
    ∧ c.front ≤ c.copy ∧ c.copy ≤ c.nextSequence
    ∧ (c.entryOf c.copy = none → c.line = 0) ∧ (∀ e ∈ c.entryOf c.copy, c.line < e.length)
    ∧ c.marks.map (·.copy) = ((List.range 16).map (· + c.copy)).filter (fun d => (c.entryOf d).isSome)
    ∧ (∀ m ∈ c.marks, m.mark ≤ c.lengthOf m.copy)
    ∧ ∀ f ∈ c.flight, s.job.state = .running ∧ f.targets.map (·.1) = s.geo.configuredPlanes ∧ (c.entryOf c.copy).isSome

/-- The serial of the compose position, or the next serial when no copy is queued there. -/
def Composer.position (c : Composer) : Nat :=
  match c.entryOf c.copy with
  | some e => e.base + (c.copy - e.first) * e.length + c.line
  | none => c.nextSerial

/-- R113, R114: each ring holds at most its depth of lines, in strictly increasing serial order and below the compose position; a
composition in flight has room and the block at the write position in each of its rings. -/
abbrev ringsFilled (s : State) : Prop :=
  (∀ p : Plane, serialsRise (s.rings.get p).entries = true ∧ (s.rings.get p).entries.length ≤ s.memory.depth p
      ∧ ∀ e ∈ (s.rings.get p).entries, e.serial < s.composer.position)
    ∧ ∀ f ∈ s.composer.flight, ∀ x ∈ f.targets, (s.rings.get x.1).entries.length < s.memory.depth x.1
      ∧ x.2 = s.memory.ringBase x.1 + (s.rings.get x.1).writePosition

/-- R96, R98: the patch index is in its order, by copy, plane and line, and no slot is held twice. -/
abbrev indexOk (s : State) : Prop :=
  s.pool.index.Pairwise (fun x y => x.le y = true) ∧ s.pool.heldSlots.Nodup

/-! ### Template space -/

/-- Whether a block lies in the extent of a template that is not FREE. -/
def TemplateRec.takes (r : TemplateRec) (block : Nat) : Bool :=
  r.state != .free && decide (r.first ≤ block ∧ block < r.first + r.blocks)

/-- R84: the free-extent list keeps its form within the template region, and each block of the region lies in exactly one free
extent or in the extent of exactly one template that is not FREE. -/
abbrev spaceOk (s : State) : Prop :=
  extentsOk s.templates.free = true
    ∧ (s.memory.plan = none → s.templates.free = [] ∧ ∀ i : TemplateIx, (s.templates.records.get i).state = .free)
    ∧ ∀ q ∈ s.memory.plan,
      (∀ e ∈ s.templates.free, q.templateBase ≤ e.first ∧ e.first + e.blocks ≤ 262144)
        ∧ (∀ i : TemplateIx, (s.templates.records.get i).state ≠ .free →
            q.templateBase ≤ (s.templates.records.get i).first
              ∧ (s.templates.records.get i).first + (s.templates.records.get i).blocks ≤ 262144)
        ∧ ∀ block < 262144, q.templateBase ≤ block →
          if inExtents s.templates.free block = true then
            ∀ i : TemplateIx, (s.templates.records.get i).takes block = false
          else ∃ i : TemplateIx, (s.templates.records.get i).takes block = true
            ∧ ∀ j : TemplateIx, (s.templates.records.get j).takes block = true → j = i

/-- R83, R85 to R87: a template that is not FREE has one block for each line of each configured plane, no plane holds more lines than
its length, and it is COMPLETE exactly when every configured plane holds all of them; a line being written is the next one
of its plane, in the block R83 gives it. -/
abbrev fillsOk (s : State) : Prop :=
  (∀ i : TemplateIx, let r := s.templates.records.get i
      r.state ≠ .free → 1 ≤ r.length ∧ 1 ≤ r.blocks ∧ r.blocks = r.length * s.geo.configuredPlanes.length
        ∧ (∀ p : Plane, r.fill.get p ≤ r.length)
        ∧ (r.state = .complete ↔ ∀ p : Plane, (s.geo.planes.get p).width ≠ 0 → r.fill.get p = r.length))
    ∧ ∀ w ∈ s.templates.writing, let r := s.templates.records.get w.template
      r.state = .filling ∧ (s.geo.planes.get w.plane).width ≠ 0 ∧ r.fill.get w.plane < r.length
        ∧ w.block = r.first + (allPlanes.filter (fun q => decide (q < w.plane ∧ (s.geo.planes.get q).width ≠ 0))).length * r.length
          + r.fill.get w.plane

/-! ### Heads offline -/

/-- R13, R128, R129: only an OFFLINE port has an offline-from serial. -/
abbrev offlineOk (s : State) : Prop := ∀ h : Port, (s.ports.get h).state ≠ .offline → s.geo.offlineFrom.get h = none

/-- R21: the serials of plane `p` whose owners a row can still ask for after a step: taken as due or begun to load before it, and
above the retire point after it. -/
def ownersKept (s t : State) : Prop :=
  ∀ (p : Plane) (serial c : Nat), (serial : Int) ≤ (s.rings.get p).frontier → (t.rings.get p).retire < (serial : Int) →
    t.owner p serial c = s.owner p serial c

/-! ### The DRAINING channels at an IDLE entry -/

/-- R153, R154, R169: at an IDLE entry a DRAINING channel with no frame awaiting handling goes to CLOSED, since its slots are freed;
one with such a frame stays DRAINING; a CLOSED or OPEN channel keeps its state. A template line whose write is in flight counts as
such a frame. DEDUCED, notes/assumptions/8.md. -/
def drainsClosed (s t : State) : Prop :=
  ∀ c : DataCh,
    let waits := (∃ f ∈ s.feed.awaiting, f.channel = c) ∨ ∃ w ∈ s.templates.writing, w.channel = c
    ((s.feed.channels.get c).state = .draining → ¬waits → (t.feed.channels.get c).state = .closed)
      ∧ ((s.feed.channels.get c).state = .draining → waits → (t.feed.channels.get c).state = .draining)
      ∧ ((s.feed.channels.get c).state = .closed ∨ (s.feed.channels.get c).state = .opened →
          t.feed.channels.get c = s.feed.channels.get c)

/-- R153, R154, R169: the DRAINING channels that close at an IDLE entry, in channel order. A template line whose write is in flight
counts as a frame awaiting handling. DEDUCED, notes/assumptions/8.md. The order is DESIGN CHOICE, notes/assumptions/30.md. -/
def closingAtIdle (s : State) : List DataCh :=
  allDataCh.filter (fun c => decide ((s.feed.channels.get c).state = .draining ∧ (∀ f ∈ s.feed.awaiting, f.channel ≠ c)
    ∧ ∀ w ∈ s.templates.writing, w.channel ≠ c))

end Sys2Proof.Machine
end

