-- ==== Sys2Proof/Certificates/Slice0/Obligations.lean ====
section
/-! DEFINITION. Certificates/Slice0/Obligations.lean: the statements for the provers. A statement about a request says what a tagged request
does whenever the part can take it (`ready`); one about an event says what it does whenever its condition holds. Each
ends in the next state, names what changes, and says through `unchangedBut`, `announced` and `answered` that nothing else
does. -/

open Sys2Proof Sys2Proof.Machine

/-! ### The machine -/

/-- The model's queue of commands: a step takes the command at its front and runs it on the state with the rest. -/
def Obligations.StepRunsFrontCommand : Prop :=
  ∀ (c : Instr) (rest : List Instr) (s : State), s.pending = c :: rest → step s = exec c { s with pending := rest }

/-- With no command waiting (the model's choice, logs 2, 4 and 12) the part begins to train from DOWN (R160), or takes an
internal event that is due, or lets one tick of the timebase pass, of which TicksSampleInputs says what it samples. A tick leaves all but the input filters, the fault counts and
words that fall into error (log 19) as it was, and with RESET asserted these filters and counts too (R159). -/
def Obligations.EmptyQueueStep : Prop :=
  ∀ s : State, s.pending = [] →
    (s.resetHeld = false → s.feed.link = .down →
      step s = .next { s with feed := { s.feed with link := .training, trainingStart := s.now } })
    ∧ (s.resetHeld = false → s.feed.link ≠ .down → (∃ c ∈ internalEvents, due s c = true) →
      ∃ c ∈ internalEvents, due s c = true ∧ step s = exec c s)
    ∧ (s.resetHeld = true ∨ (s.feed.link ≠ .down ∧ ∀ c ∈ internalEvents, due s c = false) →
      step s = .next (tick s)
        ∧ let t := tick s
        t.now = s.now + 1 ∧ t.pins = s.nextSample.pins ∧ t.inputs = s.inputs.drop 1
        ∧ t.resetHeld = s.resetHeld ∧ t.pending = [] ∧ unchangedBut [.outside, .motion, .place, .memory, .ports] s t
        ∧ t.memory.cells = s.memory.cells ∧ t.memory.plan = s.memory.plan
        ∧ (s.nextSample.upsets = [] → t.memory = s.memory)
        ∧ (s.resetHeld = true → unchangedBut [.outside, .memory] s t ∧ t.sampled = s.sampled)
        ∧ (s.resetHeld = false → t.sampled = true)
        ∧ (s.resetHeld = false → s.sampled = true → onlySampled s t))

/-- R38, R60, R127: over n + 1 samples an input that each of them shows at the other level than the accepted one has its hold longer by
n + 1 samples, and the hold has reached the filter setting (in ticks, or in µs × 100) exactly when it counts that many ticks since
the sample that started it; a sample at the accepted level clears the hold, also one that has reached a lowered setting (the
model's choice, log 26); a READY port counts the samples at which its fault input is asserted and starts again from 0 at any other.
R39, R60: the first sample after power-on or RESET gives each filter its accepted level and the decoder its last pair, and no count
and no edge results. A tick changes nothing else of the part but words that fall into error. -/
def Obligations.TicksSampleInputs : Prop :=
  (∀ s : State, s.sampled = false → s.resetHeld = false →
    let x := s.nextSample.pins
    let t := tick s
    t.sampled = true ∧ unchangedBut [.outside, .motion, .place, .memory, .ports] s t
      ∧ t.motion = { s.motion with inputA := ⟨x.a, none, false⟩, inputB := ⟨x.b, none, false⟩, lastPair := (x.a, x.b) }
      ∧ t.place = { s.place with triggers := t.place.triggers }
      ∧ (∀ i : PdIx, t.place.triggers.get i = { s.place.triggers.get i with input := ⟨x.pd.get i, none, false⟩ })
      ∧ ∀ h : Port, t.ports.get h = { s.ports.get h with faultCount :=
          if (s.ports.get h).state = .ready then (if x.fault.get h = true then (s.ports.get h).faultCount + 1 else 0)
          else (s.ports.get h).faultCount })
  ∧ ∀ (s : State) (n : Nat), s.sampled = true → s.resetHeld = false →
    let t := ticks (n + 1) s
    t.now = s.now + n + 1 ∧ t.pins = s.pinsAt n ∧ t.inputs = s.inputs.drop (n + 1) ∧ t.sampled = true
      ∧ unchangedBut [.outside, .motion, .place, .memory, .ports] s t ∧ onlySampled s t
      ∧ ((∀ i < n + 1, (s.pinsAt i).a ≠ s.motion.inputA.level) →
          let k := s.motion.inputA.heldFor n
          t.motion.inputA = ⟨s.motion.inputA.level, some k, decide (s.motion.filter ≤ k)⟩)
      ∧ ((∀ i < n + 1, (s.pinsAt i).b ≠ s.motion.inputB.level) →
          let k := s.motion.inputB.heldFor n
          t.motion.inputB = ⟨s.motion.inputB.level, some k, decide (s.motion.filter ≤ k)⟩)
      ∧ ((s.pinsAt n).a = s.motion.inputA.level → t.motion.inputA = ⟨s.motion.inputA.level, none, false⟩)
      ∧ ((s.pinsAt n).b = s.motion.inputB.level → t.motion.inputB = ⟨s.motion.inputB.level, none, false⟩)
      ∧ (∀ j : PdIx, let x := s.place.triggers.get j
          (∀ i < n + 1, (s.pinsAt i).pd.get j ≠ x.input.level) →
          let k := x.input.heldFor n
          (t.place.triggers.get j).input = ⟨x.input.level, some k, decide (x.filter * 100 ≤ k)⟩)
      ∧ (∀ j : PdIx, (s.pinsAt n).pd.get j = (s.place.triggers.get j).input.level →
          (t.place.triggers.get j).input = ⟨(s.place.triggers.get j).input.level, none, false⟩)
      ∧ ∀ h : Port,
        if (s.ports.get h).state = .ready then
          ((∀ i < n + 1, (s.pinsAt i).fault.get h = true) → (t.ports.get h).faultCount = (s.ports.get h).faultCount + n + 1)
            ∧ ((s.pinsAt n).fault.get h = false → (t.ports.get h).faultCount = 0)
        else (t.ports.get h).faultCount = (s.ports.get h).faultCount

/-- The power-on values of R1, R3, R6, R7, R13, R36, R42, R43, R58, R78, R83, R84, R92, R96, R101, R102, R113, R118, R120, R126,
R130, R142, R147, R160, R164, R166, R171, R172 and R175 that the specification states. -/
def Obligations.PowerOnValues : Prop :=
  let s := State.reset
  (∀ p : Plane, s.geo.planes.get p = ⟨0, 0, 0, 0, 3⟩ ∧ (s.geo.switches.get p).pending = false
      ∧ s.rings.get p = ⟨[], 0, -1, -1⟩)
    ∧ (∀ h : Port, s.geo.heads.get h = ⟨none, 0, 1, 8, .all 4 0, .all 4 0, 100, .goOn⟩ ∧ s.geo.offlineFrom.get h = none
      ∧ (s.ports.get h).state = .unassigned ∧ (s.ports.get h).arbiter = []
      ∧ (s.ports.get h).keepWet.interval = 0 ∧ (s.ports.get h).keepWet.mode = .repeating
      ∧ (s.ports.get h).keepWet.armed = false ∧ (s.ports.get h).keepWet.deferred = false
      ∧ ∀ k : RowIx, (s.row h k).load = .empty ∧ (s.row h k).line = none ∧ (s.row h k).due = none
        ∧ (s.row h k).window = none
        ∧ ∀ n : Fin 768, nozzleStatus s.geo.active h k.val n.val = .live ∧ nozzleStatus s.geo.staged h k.val n.val = .live)
    ∧ (∀ e : SeamIx, (s.geo.seams.get e).left = none ∧ (s.geo.seams.get e).pattern = 0 ∧ (s.geo.seams.get e).shift = 0)
    ∧ (s.motion.sense = .aLeads ∧ s.motion.filter = 0 ∧ s.motion.reverseLimit = 64 ∧ s.motion.ratio = none
      ∧ s.motion.pendingRatio = none ∧ s.motion.rawCount = 0 ∧ s.motion.acc = 0 ∧ s.motion.p = 0 ∧ s.motion.h = 0
      ∧ s.motion.lastBoundary = none ∧ s.motion.period = none)
    ∧ (∀ i : PdIx, (s.place.triggers.get i).edge = .none ∧ (s.place.triggers.get i).filter = 0
      ∧ (s.place.triggers.get i).lockout = 0 ∧ (s.place.triggers.get i).lockoutEnd = 0)
    ∧ (s.place.list = [] ∧ s.memory.plan = none ∧ s.templates.free = []
      ∧ ∀ t : TemplateIx, (s.templates.records.get t).state = .free)
    ∧ (s.pool.index = [] ∧ s.composer.pages = [] ∧ s.composer.nextSequence = 0 ∧ s.composer.nextSerial = 0
      ∧ s.composer.copy = 0 ∧ s.composer.line = 0 ∧ s.composer.marks = [])
    ∧ (s.job.state = .idle ∧ s.job.firstHalt = .none)
    ∧ (∀ c : CounterId, s.countOf c = 0 ∧ s.isAnnounced c = false)
    ∧ (s.feed.link = .down ∧ (∀ c : Fin 4, s.feed.credit.get c = ⟨0, 0, 0⟩)
      ∧ (∀ c : DataCh, (s.feed.channels.get c).state = .closed) ∧ s.feed.order = [] ∧ s.feed.requests = []
      ∧ s.feed.replies = [] ∧ s.feed.notices = [] ∧ s.feed.noticesLost = false ∧ s.feed.mask = 0xBF)

/-- The state after reset satisfies every invariant of Safety.lean. -/
def Obligations.ResetMeetsInvariants : Prop :=
  motionOk State.reset ∧ queuesOk State.reset ∧ storesOk State.reset ∧ pagesOk State.reset ∧ reservationsOk State.reset
    ∧ rowsOk State.reset ∧ ringsOk State.reset ∧ retireOk State.reset ∧ idleOk State.reset ∧ linkOk State.reset ∧ creditOk State.reset
    ∧ quotasOk State.reset ∧ recordsOk State.reset ∧ orderOk State.reset ∧ placesOk State.reset ∧ composerOk State.reset
    ∧ ringsFilled State.reset ∧ indexOk State.reset ∧ spaceOk State.reset ∧ fillsOk State.reset ∧ offlineOk State.reset

/-- R159, R76: RESET asserted holds every piece of the part's state at its power-on value but the contents of the frame
memory; while it is held no command but RESET_RELEASE and POWER_ON changes anything, and a step with no command leaves every block but the
memory's words in error (log 19) as it was; released, the part starts from
that state; power-on gives the same values with the memory's contents as reset names them, and leaves RESET not asserted (log 29). Where the specification states no value the
model's stands (logs 1 and 11). -/
def Obligations.ResetHoldsThePart : Prop :=
  ∀ s : State,
    (∃ t : State, exec .resetAssert s = .next t ∧ t.resetHeld = true ∧ t.sampled = false ∧ unchangedBut [.outside, .memory] State.reset t
        ∧ t.memory.cells = s.memory.cells ∧ t.memory.errors = s.memory.errors ∧ t.memory.plan = none
        ∧ t.pending = s.pending ∧ t.now = s.now ∧ t.pins = s.pins ∧ t.inputs = s.inputs)
    ∧ (∃ t : State, exec .resetRelease s = .next t ∧ t.resetHeld = false ∧ t = { s with resetHeld := false })
    ∧ (∃ t : State, exec .powerOn s = .next t ∧ t.resetHeld = false ∧ t.sampled = false ∧ unchangedBut [.outside] State.reset t
        ∧ t.pending = s.pending ∧ t.now = s.now ∧ t.pins = s.pins ∧ t.inputs = s.inputs)
    ∧ (s.resetHeld = true → ∀ c : Instr, c ≠ .resetAssert → c ≠ .resetRelease → c ≠ .powerOn → exec c s = .next s)
    ∧ (s.resetHeld = true → s.pending = [] → ∃ t : State, step s = .next t ∧ unchangedBut [.outside, .memory] s t
        ∧ t.sampled = s.sampled ∧ t.resetHeld = true ∧ t.memory.cells = s.memory.cells ∧ t.memory.plan = s.memory.plan
        ∧ (s.nextSample.upsets = [] → t.memory = s.memory))

/-! ### Requests -/

/-- R15: a configuration request with a field out of range is answered RANGE in every job state; one with all fields in range
is answered HELD while a job exists; neither changes anything. -/
def Obligations.ConfigurationTests : Prop :=
  ∀ (tag : Byte) (r : Request) (s : State), isConfiguration r = true → ready s →
    (outOfRange r = true → ∃ t : State, exec (commandOf tag r) s = .next t ∧ refused s t tag r.code .range)
    ∧ (outOfRange r = false → s.job.state ≠ .idle →
        ∃ t : State, exec (commandOf tag r) s = .next t ∧ refused s t tag r.code .held)

/-- R181: Identify is answered DONE with the fixed 24-byte record of section 11.6 and changes nothing. -/
def Obligations.IdentifyResult : Prop :=
  ∀ (tag : Byte) (s : State), ready s →
    ∃ t : State, exec (.identify tag) s = .next t ∧ unchangedBut [.feed] s t
      ∧ answered s t tag 0x01 .done [0x44, 0x18, 0x01, 0x0C, 0x04, 0x00, 0x03, 0x06, 0x00, 0x40, 0x00, 0x00, 0x04, 0x00, 0x00,
          0x10, 0x10, 0x20, 0x40, 0x10, 0xA0, 0x86, 0x01, 0x00]

/-- R182: Status Report answers the record as it stands, then clears every announced flag and the notices-lost flag, and with
option 1 every counter; an option above 1 is answered RANGE (R180). The record is 502 bytes, each of its fields at the offset of
section 11.7, least significant byte first (R177). The held slots are those of the index and the one whose accepted patch is being
written (R96); the slots in use are those of the index (log 21). A wait reason of NONE is also given while the line waits for its
own patch write (log 28). -/
def Obligations.StatusReportResult : Prop :=
  (∀ (tag option : Byte) (s : State), ready s →
     ∃ t : State, exec (.statusReport tag option) s = .next t ∧
       (if 1 < option.toNat then refused s t tag 0x02 .range
        else unchangedBut [.counters, .feed] s t
          ∧ answered { s with counters := t.counters, feed := { s.feed with noticesLost := false } } t tag 0x02 .done s.reportRecord
          ∧ ∀ c : CounterId, t.isAnnounced c = false ∧ t.countOf c = if option.toNat = 1 then 0 else s.countOf c))
  ∧ (∀ s : State, let r := s.reportRecord
      let signed := fun (offset : Nat) (x : Int) =>
        -140737488355328 ≤ x ∧ x < 140737488355328 → (BitVec.ofNat 48 (field r offset 6)).toInt = x
      let c := s.composer
      r.length = 502
        ∧ field r 0 1 = s.job.state.code
        ∧ (field r 1 1, field r 2 1) = (match s.job.firstHalt with | .none => (0, 0) | .reverse => (1, 0) | .headFault h => (2, h.val))
        ∧ (s.job.state ≠ .running → (field r 3 1, field r 4 1) = (1, 0))
        ∧ (s.job.state = .running →
          (c.flight ≠ none → (field r 3 1, field r 4 1) = (0, 0))
          ∧ (c.flight = none → c.entryOf c.copy = none → (field r 3 1, field r 4 1) = (2, 0))
          ∧ (c.flight = none → c.entryOf c.copy ≠ none → ∀ m ∈ c.markOf c.copy,
            if m.mark ≤ c.line then (field r 3 1, field r 4 1) = (3, 0)
            else
              (∀ p : Plane, (s.geo.planes.get p).width ≠ 0 → s.memory.depth p ≤ (s.rings.get p).entries.length →
                (∀ q < p, (s.geo.planes.get q).width ≠ 0 → (s.rings.get q).entries.length < s.memory.depth q) →
                (field r 3 1, field r 4 1) = (4, p.val))
              ∧ ((∀ p : Plane, (s.geo.planes.get p).width ≠ 0 → (s.rings.get p).entries.length < s.memory.depth p) →
                (field r 3 1, field r 4 1) = (0, 0))))
        ∧ field r 5 1 = (if s.feed.noticesLost then 1 else 0)
        ∧ field r 6 1 = (if s.motion.ratio.isSome then 1 else 0) + (if s.motion.pendingRatio.isSome then 2 else 0)
            + (if s.motion.period.isSome then 4 else 0)
        ∧ field r 7 1 = s.place.list.length % 256
        ∧ signed 8 s.motion.p ∧ signed 14 s.motion.h
        ∧ (∀ T : Nat, s.motion.period = some T → field r 20 4 = T % 4294967296)
        ∧ (s.motion.period = none → field r 20 4 = 0)
        ∧ (∀ x ∈ s.motion.ratio, field r 24 3 = x.n % 16777216 ∧ field r 27 3 = x.m % 16777216)
        ∧ (s.motion.ratio = none → field r 24 3 = 0 ∧ field r 27 3 = 0)
        ∧ field r 30 4 = s.motion.rawCount.toNat
        ∧ field r 34 1 = c.pages.length % 256
        ∧ field r 35 2 = (s.pool.index.length + if s.pool.writing.isSome then 1 else 0) % 65536
        ∧ field r 37 4 = c.copy % 4294967296 ∧ field r 41 2 = c.line % 65536
        ∧ (∀ d : DataCh, field r (43 + 3 * d.val) 1 = (s.feed.channels.get d).state.code
            ∧ field r (44 + 3 * d.val) 2 = (s.pool.index.filter (fun x => x.channel == d)).length % 65536)
        ∧ (∀ h : Port, field r (52 + h.val) 1 = (s.ports.get h).state.code)
        ∧ (∀ p : Plane, field r (64 + 15 * p.val) 2 = (s.rings.get p).entries.length % 65536
            ∧ signed (66 + 15 * p.val) (s.rings.get p).retire ∧ signed (72 + 15 * p.val) (s.rings.get p).frontier
            ∧ field r (78 + 15 * p.val) 1 = (if (s.geo.switches.get p).pending then 1 else 0)
            ∧ field r (214 + 8 * p.val) 4 = (s.countOf (.underruns p)).toNat
            ∧ field r (218 + 8 * p.val) 4 = (s.countOf (.lateLines p)).toNat)
        ∧ (List.range 15).map (fun i => field r (154 + 4 * i) 4) = [CounterId.encoderErrors, .reTravelBoundaries, .reTravelEdges,
            .lockoutEdges, .missedProducts, .earlyTriggers, .copiesPrinted, .correctedWords, .uncorrectableWords,
            .templateLinesDropped, .patchesDropped, .patchesClipped, .laterHalts, .headerErrors, .protocolErrors].map
            (fun i => (s.countOf i).toNat)
        ∧ ∀ h : Port, field r (262 + 20 * h.val) 4 = (s.countOf (.dropFires h)).toNat
            ∧ field r (266 + 20 * h.val) 4 = (s.countOf (.forcedFires h)).toNat
            ∧ field r (270 + 20 * h.val) 4 = (s.countOf (.lateFires h)).toNat
            ∧ field r (274 + 20 * h.val) 4 = (s.countOf (.skippedLines h)).toNat
            ∧ field r (278 + 20 * h.val) 4 = (s.countOf (.keepWetPulses h)).toNat)

/-- R2: Set Plane: its tests in order, and a record replaced whole. A patch being written counts as one the pool holds for its plane
(the model's choice, log 21). -/
def Obligations.SetPlaneResult : Prop :=
  ∀ (tag plane : Byte) (width : BitVec 16) (a1 a2 a3 cap : Byte) (s : State), ready s →
    ∃ t : State, exec (.setPlane tag plane width a1 a2 a3 cap) s = .next t ∧
      (if outOfRange (.setPlane plane width a1 a2 a3 cap) = true then refused s t tag 0x03 .range
       else if s.job.state ≠ .idle then refused s t tag 0x03 .held
       else ∀ p : Plane, p.val = plane.toNat →
         let changes := ((s.geo.planes.get p).width = 0) ≠ (width.toNat = 0)
         let blocked := (changes ∧ ∃ i : TemplateIx, (s.templates.records.get i).state ≠ .free)
           ∨ (changes ∧ width.toNat = 0
             ∧ ((∃ e ∈ s.pool.index, e.plane = p) ∨ ∃ w ∈ s.pool.writing, w.entry.plane = p))
         (blocked → refused s t tag 0x03 .inUse)
           ∧ (¬blocked → unchangedBut [.geo, .feed] s t ∧ answered s t tag 0x03 .done []
             ∧ t.geo = { s.geo with
                 planes := s.geo.planes.put p ⟨width.toNat, a1.toNat, a2.toNat, a3.toNat, cap.toNat⟩ }))

/-- R3, R4, R126, R142: Set Head replaces the record, and the plane field moves the port. The fault count of a port that goes
to UNASSIGNED is 0 (the model's choice, log 11). -/
def Obligations.SetHeadResult : Prop :=
  ∀ (tag port plane : Byte) (first : BitVec 16) (rows : Byte) (nozzles d0 d1 d2 d3 : BitVec 16)
    (f0 f1 f2 f3 : Byte) (window : BitVec 16) (policy : Byte) (s : State), ready s →
    ∃ t : State, exec (.setHead tag port plane first rows nozzles d0 d1 d2 d3 f0 f1 f2 f3 window policy) s = .next t ∧
      (if outOfRange (.setHead port plane first rows nozzles d0 d1 d2 d3 f0 f1 f2 f3 window policy) = true then
         refused s t tag 0x04 .range
       else if s.job.state ≠ .idle then refused s t tag 0x04 .held
       else ∀ h : Port, h.val = port.toNat →
         let r := t.geo.heads.get h
         let before := s.ports.get h
         unchangedBut [.geo, .ports, .counters, .feed] s t
           ∧ (r.plane.map (fun p => p.val) = (if plane = 0xFF then none else some plane.toNat) ∧ r.first = first.toNat
             ∧ r.rows = rows.toNat ∧ r.nozzles = nozzles.toNat ∧ r.window = window.toNat
             ∧ r.policy = (if policy = 0 then .goOn else .halt)
             ∧ ∀ k : RowIx, r.d.get k = (if k.val < rows.toNat then [d0, d1, d2, d3].getD k.val 0 else 0).toNat
               ∧ r.f.get k = (if k.val < rows.toNat then [f0, f1, f2, f3].getD k.val 0 else 0).toNat)
           ∧ (∀ g : Port, g ≠ h → t.geo.heads.get g = s.geo.heads.get g ∧ t.ports.get g = s.ports.get g
             ∧ t.geo.offlineFrom.get g = s.geo.offlineFrom.get g)
           ∧ t.geo.planes = s.geo.planes ∧ t.geo.seams = s.geo.seams ∧ t.geo.active = s.geo.active
           ∧ t.geo.staged = s.geo.staged ∧ t.geo.switches = s.geo.switches
           ∧ (if plane ≠ 0xFF ∧ before.state = .unassigned then
               t.ports.get h = { before with
                 state := .ready, faultCount := 0,
                 keepWet := { before.keepWet with start := s.now, deferred := false, armed := decide (0 < before.keepWet.interval) } }
               ∧ t.geo.offlineFrom.get h = s.geo.offlineFrom.get h
               ∧ answeredAfter [.notice (.headState h .ready)] s t tag 0x04 .done []
             else if plane = 0xFF ∧ before.state ≠ .unassigned then
               t.ports.get h = { before with
                 state := .unassigned, faultCount := 0, keepWet := { before.keepWet with armed := false, deferred := false } }
               ∧ t.geo.offlineFrom.get h = none
               ∧ answeredAfter [.notice (.headState h .unassigned)] s t tag 0x04 .done []
             else t.ports.get h = before ∧ t.geo.offlineFrom.get h = s.geo.offlineFrom.get h
               ∧ answered s t tag 0x04 .done []))

/-- R6, R59, R143: Set Seam and Set Trigger replace the named record in IDLE; a left head of NONE (FFh) empties the entry. A hold in progress goes on and
is compared with the new filter setting (R60). Set Keep-wet
stores the settings in every state and restarts the timer of a READY port. -/
def Obligations.SeamTriggerAndKeepWetResults : Prop :=
  ((∀ (tag entry left right shift : Byte) (pattern : BitVec 64) (s : State), ready s →
     ∃ t : State, exec (.setSeam tag entry left right shift pattern) s = .next t ∧
       (if outOfRange (.setSeam entry left right shift pattern) = true then refused s t tag 0x05 .range
        else if s.job.state ≠ .idle then refused s t tag 0x05 .held
        else unchangedBut [.geo, .feed] s t ∧ answered s t tag 0x05 .done []
          ∧ ∀ (e : SeamIx) (r : Port), e.val = entry.toNat → r.val = right.toNat →
            ∃ l : Option Port, l.map (fun h => h.val) = (if left = 0xFF then none else some left.toNat)
              ∧ t.geo = { s.geo with seams := s.geo.seams.put e ⟨l, r, shift.toNat, pattern⟩ }))
   ∧ (∀ (tag input edge filter : Byte) (lockout : BitVec 16) (s : State), ready s →
     ∃ t : State, exec (.setTrigger tag input edge filter lockout) s = .next t ∧
       (if outOfRange (.setTrigger input edge filter lockout) = true then refused s t tag 0x0B .range
        else if s.job.state ≠ .idle then refused s t tag 0x0B .held
        else unchangedBut [.place, .feed] s t ∧ answered s t tag 0x0B .done []
          ∧ ∀ i : PdIx, i.val = input.toNat →
            t.place = { s.place with triggers := s.place.triggers.put i { s.place.triggers.get i with
              edge := [EdgeSelect.none, .rising, .falling, .both].getD edge.toNat .none,
              filter := filter.toNat, lockout := lockout.toNat,
              input := { (s.place.triggers.get i).input with
                reached := (s.place.triggers.get i).input.reached
                  && decide (filter.toNat * 100 ≤ (s.place.triggers.get i).input.hold.getD 0) } } })))
  ∧ (∀ (tag port interval mode : Byte) (s : State), ready s →
      ∃ t : State, exec (.setKeepWet tag port interval mode) s = .next t ∧
        (if 11 < port.toNat ∨ 1 < mode.toNat then refused s t tag 0x0C .range
         else unchangedBut [.ports, .feed] s t ∧ answered s t tag 0x0C .done []
           ∧ ∀ h : Port, h.val = port.toNat →
             let k := (s.ports.get h).keepWet
             let m := if mode = 0 then KeepWetMode.repeating else .once
             (∀ g : Port, g ≠ h → t.ports.get g = s.ports.get g)
               ∧ t.ports.get h = { s.ports.get h with
                   keepWet := if (s.ports.get h).state = .ready then ⟨interval.toNat, m, decide (0 < interval.toNat), s.now, false⟩
                     else { k with interval := interval.toNat, mode := m } }))

/-- R37, R39, R51: Set Motion replaces the four settings in IDLE, and a hold in progress goes on and is compared with the new F; Set Ratio sets the ratio at once in IDLE and the pending ratio in
a job, and is answered RANGE when N or M is out of range. -/
def Obligations.MotionSettings : Prop :=
  (∀ (tag sense filter : Byte) (limit : BitVec 16) (n m : BitVec 24) (s : State), ready s →
    ∃ t : State, exec (.setMotion tag sense filter limit n m) s = .next t ∧
      (if outOfRange (.setMotion sense filter limit n m) = true then refused s t tag 0x09 .range
       else if s.job.state ≠ .idle then refused s t tag 0x09 .held
       else unchangedBut [.motion, .feed] s t ∧ answered s t tag 0x09 .done []
         ∧ t.motion = { s.motion with
             sense := if sense = 0 then .aLeads else .bLeads, filter := filter.toNat, reverseLimit := limit.toNat,
             ratio := some ⟨n.toNat, m.toNat⟩,
             inputA := { s.motion.inputA with
               reached := s.motion.inputA.reached && decide (filter.toNat ≤ s.motion.inputA.hold.getD 0) },
             inputB := { s.motion.inputB with
               reached := s.motion.inputB.reached && decide (filter.toNat ≤ s.motion.inputB.hold.getD 0) } }))
  ∧ (∀ (tag : Byte) (n m : BitVec 24) (s : State), ready s →
    ∃ t : State, exec (.setRatio tag n m) s = .next t ∧
      (if m.toNat = 0 ∨ n.toNat = 0 ∨ m.toNat < n.toNat then refused s t tag 0x0A .range
       else unchangedBut [.motion, .feed] s t ∧ answered s t tag 0x0A .done []
         ∧ t.motion = (if s.job.state = .idle then { s.motion with ratio := some ⟨n.toNat, m.toNat⟩ }
           else { s.motion with pendingRatio := some ⟨n.toNat, m.toNat⟩ })))

/-- R8, R180: the tests of Set Nozzles, and its immediate effect in IDLE or on a head that is not in use: the listed active
statuses are replaced in order and no other status changes. -/
def Obligations.SetNozzlesAtOnce : Prop :=
  ∀ (tag port row : Byte) (first count : BitVec 16) (statuses : List Byte) (s : State), ready s → recordsOk s → storesOk s →
    ∃ t : State, exec (.setNozzles tag port row first count statuses) s = .next t ∧
      (11 < port.toNat → refused s t tag 0x06 .range)
      ∧ ∀ h : Port, h.val = port.toNat →
        let r := s.geo.heads.get h
        let fits := row.toNat < r.rows ∧ 1 ≤ count.toNat ∧ count.toNat ≤ 768 ∧ first.toNat + count.toNat ≤ r.nozzles
        (¬fits → refused s t tag 0x06 .range)
          ∧ (fits → statuses.length ≠ count.toNat → refused s t tag 0x06 .length)
          ∧ (fits → statuses.length = count.toNat → (∃ b ∈ statuses, 2 < b.toNat) → refused s t tag 0x06 .range)
          ∧ (fits → statuses.length = count.toNat → (∀ b ∈ statuses, b.toNat ≤ 2) →
              (s.job.state = .idle ∨ s.geo.inUse h = false) →
            unchangedBut [.geo, .feed] s t ∧ answered s t tag 0x06 .done []
              ∧ t.geo = { s.geo with active := t.geo.active }
              ∧ ∀ (g : Port) (k : RowIx) (n : Fin 768), nozzleStatus t.geo.active g k.val n.val
                  = if inRun h row.toNat first.toNat count.toNat g k n.val then
                      statusNamed (statuses.getD (n.val - first.toNat) 0)
                    else nozzleStatus s.geo.active g k.val n.val)

/-- R9, R11: during a job a Set Nozzles that passes R8 and names a head in use is answered PENDING while the plane's switch is
pending; otherwise the plane's staged statuses are its active ones with the listed ones written over them, and E is the
frontier + 1. A switch whose E − 1 the retire point has reached completes at once, with its MAP SWITCHED notice after the reply. -/
def Obligations.SetNozzlesStaged : Prop :=
  ∀ (tag port row : Byte) (first count : BitVec 16) (statuses : List Byte) (s : State) (h : Port) (p : Plane),
    ready s → recordsOk s → storesOk s → s.job.state ≠ .idle → h.val = port.toNat → s.planeOf h = some p →
    row.toNat < (s.geo.heads.get h).rows → 1 ≤ count.toNat → count.toNat ≤ 768 →
    first.toNat + count.toNat ≤ (s.geo.heads.get h).nozzles → statuses.length = count.toNat →
    (∀ b ∈ statuses, b.toNat ≤ 2) →
    ∃ t : State, exec (.setNozzles tag port row first count statuses) s = .next t ∧
      (if (s.geo.switches.get p).pending = true then refused s t tag 0x06 .pending
       else
        let e := (s.rings.get p).frontier + 1
        let reached := e.toNat ≤ (s.rings.get p).retire + 1
        let staged := fun (g : Port) (k : RowIx) (n : Nat) =>
          if inRun h row.toNat first.toNat count.toNat g k n then statusNamed (statuses.getD (n - first.toNat) 0)
          else nozzleStatus s.geo.active g k.val n
        unchangedBut [.geo, .counters, .feed] s t
          ∧ t.geo.planes = s.geo.planes ∧ t.geo.heads = s.geo.heads ∧ t.geo.seams = s.geo.seams
          ∧ t.geo.offlineFrom = s.geo.offlineFrom
          ∧ (∀ q : Plane, q ≠ p → t.geo.switches.get q = s.geo.switches.get q)
          ∧ t.geo.switches.get p = ⟨decide (¬reached), e.toNat⟩
          ∧ (∀ (g : Port) (k : RowIx) (n : Fin 768), nozzleStatus t.geo.staged g k.val n.val
              = if s.planeOf g = some p then staged g k n.val else nozzleStatus s.geo.staged g k.val n.val)
          ∧ (∀ (g : Port) (k : RowIx) (n : Fin 768), nozzleStatus t.geo.active g k.val n.val
              = if reached ∧ s.planeOf g = some p then staged g k n.val else nozzleStatus s.geo.active g k.val n.val)
          ∧ announced ([.reply ⟨tag, 0x06, .done, []⟩] ++ if reached then [.notice (.mapSwitched p)] else []) s t)

/-- R12: Read Nozzles answers the stored statuses of the run in every job state, with E and the staged ones while the switch
of the plane of a head in use is pending, and changes nothing. -/
def Obligations.ReadNozzlesResult : Prop :=
  ∀ (tag port row : Byte) (first count : BitVec 16) (s : State), ready s →
    ∃ t : State, exec (.readNozzles tag port row first count) s = .next t ∧ unchangedBut [.feed] s t ∧
      (11 < port.toNat → answered s t tag 0x07 .range [])
      ∧ ∀ h : Port, h.val = port.toNat →
        let r := s.geo.heads.get h
        let fits := row.toNat < r.rows ∧ 1 ≤ count.toNat ∧ count.toNat ≤ 768 ∧ first.toNat + count.toNat ≤ r.nozzles
        let run := fun (m : List (Nat × NozzleStatus)) =>
          (List.range count.toNat).map (fun i => (nozzleStatus m h row.toNat (first.toNat + i)).code)
        (¬fits → answered s t tag 0x07 .range [])
          ∧ (fits → ∀ p : Plane, s.planeOf h = some p → (s.geo.switches.get p).pending = true →
              answered s t tag 0x07 .done ([1] ++ leBytes 6 (s.geo.switches.get p).serial ++ leBytes 2 count.toNat
                ++ run s.geo.active ++ run s.geo.staged))
          ∧ (fits → (∀ p : Plane, s.planeOf h = some p → (s.geo.switches.get p).pending = false) →
              answered s t tag 0x07 .done ([0, 0, 0, 0, 0, 0, 0] ++ leBytes 2 count.toNat ++ run s.geo.active))

/-- R14, R129: Restore Head in IDLE takes an OFFLINE port whose fault input is not asserted to READY, with every row EMPTY, its
arbiter queue empty, its offline-from serial absent, its fault count 0 and its keep-wet timer restarted. -/
def Obligations.RestoreHeadResult : Prop :=
  ∀ (tag port : Byte) (s : State), ready s →
    ∃ t : State, exec (.restoreHead tag port) s = .next t ∧
      (if 11 < port.toNat then refused s t tag 0x08 .range
       else if s.job.state ≠ .idle then refused s t tag 0x08 .held
       else ∀ h : Port, h.val = port.toNat →
         if (s.ports.get h).state ≠ .offline then refused s t tag 0x08 .done
         else if s.pins.fault.get h = true then refused s t tag 0x08 .state
         else
          let q := t.ports.get h
          unchangedBut [.geo, .ports, .counters, .feed] s t
            ∧ answeredAfter [.notice (.headState h .ready)] s t tag 0x08 .done []
            ∧ t.geo = { s.geo with offlineFrom := s.geo.offlineFrom.put h none }
            ∧ (∀ g : Port, g ≠ h → t.ports.get g = s.ports.get g)
            ∧ q.state = .ready ∧ q.faultCount = 0 ∧ q.arbiter = []
            ∧ q.keepWet = { (s.ports.get h).keepWet with
                start := s.now, deferred := false, armed := decide (0 < (s.ports.get h).keepWet.interval) }
            ∧ ∀ k : RowIx, q.rows.get k = { (s.ports.get h).rows.get k with load := .empty, line := none, due := none })

/-- R78, R79: Set Memory Plan: its tests in order, and the plan it sets: the pool slots from block 0, then each plane's ring in plane
order, then the template region as one free extent. -/
def Obligations.SetMemoryPlanResult : Prop :=
  ∀ (tag : Byte) (slots d0 d1 d2 d3 d4 d5 : BitVec 16) (s : State), ready s →
    let sum := slots.toNat + d0.toNat + d1.toNat + d2.toNat + d3.toNat + d4.toNat + d5.toNat
    ∃ t : State, exec (.setMemoryPlan tag slots d0 d1 d2 d3 d4 d5) s = .next t ∧
      (if outOfRange (.setMemoryPlan slots d0 d1 d2 d3 d4 d5) = true then refused s t tag 0x0D .range
       else if s.job.state ≠ .idle then refused s t tag 0x0D .held
       else if (∃ i : TemplateIx, (s.templates.records.get i).state ≠ .free)
           ∨ (∃ c : DataCh, (s.feed.channels.get c).state ≠ .closed) then refused s t tag 0x0D .inUse
       else if 262144 < sum then refused s t tag 0x0D .space
       else unchangedBut [.memory, .templates, .feed] s t
         ∧ answered s t tag 0x0D .done (leBytes 4 sum ++ leBytes 4 (262144 - sum))
         ∧ t.memory.cells = s.memory.cells ∧ t.memory.errors = s.memory.errors
         ∧ t.memory.plan = some ⟨slots.toNat, #v[d0.toNat, d1.toNat, d2.toNat, d3.toNat, d4.toNat, d5.toNat]⟩
         ∧ t.memory.slots = slots.toNat
         ∧ (∀ p : Plane, t.memory.depth p = [d0.toNat, d1.toNat, d2.toNat, d3.toNat, d4.toNat, d5.toNat].getD p.val 0
           ∧ t.memory.ringBase p
             = slots.toNat + ([d0.toNat, d1.toNat, d2.toNat, d3.toNat, d4.toNat, d5.toNat].take p.val).sum)
         ∧ t.templates.records = s.templates.records ∧ t.templates.writing = s.templates.writing
         ∧ t.templates.free = (if sum < 262144 then [⟨sum, 262144 - sum⟩] else []))

/-- R85, R86, R90: Define Template and Drop Template, once no template line is being written: their tests in order; the first extent long
enough gives its low end; a template that no page names becomes FREE and its extent joins the free-extent list, which keeps the
order and the separation of R84. -/
def Obligations.TemplateRequestResults : Prop :=
  (∀ (tag template : Byte) (length : BitVec 16) (s : State), ready s → s.templates.writing = none →
     ∃ t : State, exec (.defineTemplate tag template length) s = .next t ∧
       (if 15 < template.toNat ∨ length.toNat = 0 then refused s t tag 0x0E .range
        else ∀ i : TemplateIx, i.val = template.toNat →
         let r := s.templates.records.get i
         let size := length.toNat * s.geo.configuredPlanes.length
         let found := s.templates.free.find? (fun e => decide (size ≤ e.blocks))
         if r.state ≠ .free ∨ s.geo.configuredPlanes = [] then
           unchangedBut [.feed] s t ∧ answered s t tag 0x0E .state ([r.state.code] ++ allPlanes.flatMap (fun p =>
             leBytes 2 (if r.state ≠ .free ∧ 0 < (s.geo.planes.get p).width then r.fill.get p else 0)))
         else if found = none then refused s t tag 0x0E .space
         else ∀ e ∈ found,
           unchangedBut [.templates, .feed] s t ∧ answered s t tag 0x0E .done (leBytes 4 e.first ++ leBytes 4 size)
             ∧ t.templates.records = s.templates.records.put i ⟨.filling, length.toNat, e.first, size, .all 6 0⟩
             ∧ t.templates.writing = none
             ∧ (extentsOk s.templates.free = true →
                 extentsOk t.templates.free = true
                   ∧ ∀ block : Nat, inExtents t.templates.free block
                       = (inExtents s.templates.free block && !decide (e.first ≤ block ∧ block < e.first + size)))))
  ∧ (∀ (tag template : Byte) (s : State), ready s → s.templates.writing = none →
      ∃ t : State, exec (.dropTemplate tag template) s = .next t ∧
        (if 15 < template.toNat then refused s t tag 0x0F .range
         else ∀ i : TemplateIx, i.val = template.toNat →
          let r := s.templates.records.get i
          if r.state = .free then refused s t tag 0x0F .done
          else if ∃ e ∈ s.composer.pages, e.template = some i then refused s t tag 0x0F .inUse
          else unchangedBut [.templates, .feed] s t ∧ answered s t tag 0x0F .done []
            ∧ (t.templates.records.get i).state = .free
            ∧ (∀ j : TemplateIx, j ≠ i → t.templates.records.get j = s.templates.records.get j)
            ∧ t.templates.writing = none
            ∧ (extentsOk s.templates.free = true → 0 < r.blocks →
                (∀ e ∈ s.templates.free, e.first + e.blocks ≤ r.first ∨ r.first + r.blocks ≤ e.first) →
                extentsOk t.templates.free = true
                  ∧ ∀ block : Nat, inExtents t.templates.free block
                      = (inExtents s.templates.free block || decide (r.first ≤ block ∧ block < r.first + r.blocks)))))

/-- R92 to R94, R102: Queue Page: its tests in order; an accepted page joins the end of the queue with the next copy sequence and
the next serial, which move on, and its copies inside the window join the mark table. -/
def Obligations.QueuePageResult : Prop :=
  ∀ (tag template : Byte) (copies length gap top : BitVec 16) (source patched : Byte) (s : State), ready s →
    let c := s.composer
    let named : Option TemplateIx := allTemplates.find? (fun i => i.val == template.toNat)
    ∃ t : State, exec (.queuePage tag template copies length gap top source patched) s = .next t ∧
      (if copies.toNat = 0 ∨ length.toNat = 0 ∨ (15 < template.toNat ∧ template ≠ 0xFF) ∨ 4 < source.toNat ∨ 1 < patched.toNat then
         refused s t tag 0x10 .range
       else if s.job.state = .stopping ∨ s.job.state = .halted then refused s t tag 0x10 .state
       else if 32 ≤ c.pages.length then refused s t tag 0x10 .full
       else if (∃ i ∈ named, (s.templates.records.get i).state ≠ .complete) then refused s t tag 0x10 .state
       else if 4294967295 < c.nextSequence + copies.toNat ∨ 281474976710655 < c.nextSerial + copies.toNat * length.toNat then
         refused s t tag 0x10 .range
       else
        let e : PageEntry := ⟨c.nextSequence, copies.toNat, c.nextSerial, length.toNat, gap.toNat, top.toNat,
          [Source.pd 0, .pd 1, .pd 2, .pd 3, .continuous].getD source.toNat .continuous, named, decide (patched ≠ 0)⟩
        unchangedBut [.composer, .feed] s t
          ∧ answered s t tag 0x10 .done (leBytes 4 c.nextSequence ++ leBytes 6 c.nextSerial)
          ∧ t.composer.pages = c.pages ++ [e] ∧ t.composer.nextSequence = c.nextSequence + copies.toNat
          ∧ t.composer.nextSerial = c.nextSerial + copies.toNat * length.toNat ∧ t.composer.copy = c.copy
          ∧ t.composer.line = c.line ∧ t.composer.flight = c.flight
          ∧ ∀ copy : Nat, c.copy ≤ copy → copy ≤ c.copy + 15 →
              t.composer.markOf copy = (match c.markOf copy with
                | some m => some m
                | none => (t.composer.entryOf copy).map (fun x => ⟨copy, if x.patched then 0 else x.length, 0⟩)))

/-- R103: Mark: its tests in order; the mark takes a value above it, and the reply carries the mark and the count. -/
def Obligations.MarkResult : Prop :=
  ∀ (tag : Byte) (copy : BitVec 32) (value : BitVec 16) (s : State), ready s →
    let c := s.composer
    ∃ t : State, exec (.mark tag copy value) s = .next t ∧
      (if c.nextSequence ≤ copy.toNat ∨ c.copy + 15 < copy.toNat then refused s t tag 0x11 .ahead
       else if copy.toNat < c.copy then
         unchangedBut [.feed] s t ∧ answered s t tag 0x11 .done [1, 0, 0, 0, 0, 0, 0]
       else if c.lengthOf copy.toNat < value.toNat then refused s t tag 0x11 .range
       else ∀ m : MarkEntry, c.markOf copy.toNat = some m →
         let mark := max m.mark value.toNat
         unchangedBut [.composer, .feed] s t
           ∧ answered s t tag 0x11 .done ([0] ++ leBytes 2 mark ++ leBytes 4 m.accepted.toNat)
           ∧ t.composer = { c with marks := t.composer.marks }
           ∧ t.composer.markOf copy.toNat = some { m with mark := mark }
           ∧ ∀ d : Nat, d ≠ copy.toNat → t.composer.markOf d = c.markOf d)

/-- R167, R168: Open Channel: its tests in order; otherwise the channel takes its plane set and quota, joins the end of the
reservation order as WAITING, and the order is served. -/
def Obligations.OpenChannelResult : Prop :=
  ∀ (tag channel planes : Byte) (quota : BitVec 16) (s : State), ready s → orderOk s →
    ∃ t : State, exec (.openChannel tag channel planes quota) s = .next t ∧
      (if channel.toNat = 0 ∨ 3 < channel.toNat ∨ planes.toNat = 0 ∨ 63 < planes.toNat ∨ quota.toNat = 0
           ∨ s.memory.slots < quota.toNat then refused s t tag 0x12 .range
       else ∀ c : DataCh, c.val + 1 = channel.toNat →
        if (s.feed.channels.get c).state ≠ .closed then
          unchangedBut [.feed] s t ∧ answered s t tag 0x12 .state (leBytes 1 (s.feed.channels.get c).state.code)
        else
          let done := servedFront (s.feed.order ++ [c]) t.feed.order
          servedAs s.memory.slots (s.feed.channels.put c ⟨.waiting, planes.setWidth 6, quota.toNat⟩) t.feed.channels
              (s.feed.order ++ [c]) t.feed.order done
            ∧ unchangedBut [.counters, .feed] s t ∧ linkKept s t ∧ t.feed.requests = s.feed.requests
            ∧ t.feed.awaiting = s.feed.awaiting
            ∧ told ([.notice (.channelState c .waiting)] ++ pendingSigns done
              ++ [.reply ⟨tag, 0x12, .done, leBytes 1 (t.feed.channels.get c).state.code⟩]) s t)

/-- R169: Close Channel by the channel's state; and the close of a DRAINING channel once it holds no slot and no frame. Each
close releases the reservation and serves the order (R168). R154: at Abort a DRAINING channel with no frame awaiting handling
goes to CLOSED, since its slots are freed; one with such a frame stays DRAINING (log 8); a CLOSED or OPEN one keeps its state. -/
def Obligations.CloseChannelResult : Prop :=
  ((∀ (tag channel : Byte) (s : State), ready s → orderOk s →
     ∃ t : State, exec (.closeChannel tag channel) s = .next t ∧
       (if channel.toNat = 0 ∨ 3 < channel.toNat then refused s t tag 0x13 .range
        else ∀ c : DataCh, c.val + 1 = channel.toNat →
         let x := s.feed.channels.get c
         let closed := s.feed.channels.put c { x with state := .closed }
         if x.state = .closed ∨ x.state = .draining then refused s t tag 0x13 .state
         else unchangedBut [.counters, .feed] s t ∧ linkKept s t ∧ t.feed.requests = s.feed.requests
           ∧ t.feed.awaiting = s.feed.awaiting
           ∧ (let reply := [Sign.reply ⟨tag, 0x13, .done, leBytes 1 (t.feed.channels.get c).state.code⟩]
             if x.state = .waiting then
               let order := s.feed.order.filter (fun d => d != c)
               let done := servedFront order t.feed.order
               servedAs s.memory.slots closed t.feed.channels order t.feed.order done
                 ∧ told ([.notice (.channelState c .closed)] ++ pendingSigns done ++ reply) s t
              else if s.slotsInUse c = 0 ∧ s.framesAwaiting c = 0 then
               let done := servedFront s.feed.order t.feed.order
               servedAs s.memory.slots closed t.feed.channels s.feed.order t.feed.order done
                 ∧ told ([.notice (.channelState c .closed)] ++ pendingSigns done ++ reply) s t
              else t.feed.channels = s.feed.channels.put c { x with state := .draining } ∧ t.feed.order = s.feed.order
               ∧ told ([.notice (.channelState c .draining)] ++ reply) s t)))
   ∧ (∀ (c : DataCh) (s : State), awake s → orderOk s → (s.feed.channels.get c).state = .draining →
       s.slotsInUse c = 0 → s.framesAwaiting c = 0 →
     ∃ t : State, exec (.channelDrained c) s = .next t ∧ unchangedBut [.counters, .feed] s t ∧ linkKept s t
       ∧ repliesKept s t ∧ t.feed.requests = s.feed.requests ∧ t.feed.awaiting = s.feed.awaiting
       ∧ (let done := servedFront s.feed.order t.feed.order
         servedAs s.memory.slots (s.feed.channels.put c { s.feed.channels.get c with state := .closed }) t.feed.channels
             s.feed.order t.feed.order done
           ∧ told ([.notice (.channelState c .closed)] ++ pendingSigns done) s t)))
  ∧ (∀ (tag : Byte) (s : State) (c : DataCh), ready s → orderOk s →
      let waits := (∃ f ∈ s.feed.awaiting, f.channel = c) ∨ ∃ w ∈ s.templates.writing, w.channel = c
      ∃ t : State, exec (.abort tag) s = .next t ∧ t.job.state = .idle ∧ t.pool = ⟨[], none⟩ ∧ t.feed.awaiting = s.feed.awaiting
        ∧ ((s.feed.channels.get c).state = .draining → ¬waits → (t.feed.channels.get c).state = .closed)
        ∧ ((s.feed.channels.get c).state = .draining → waits → (t.feed.channels.get c).state = .draining)
        ∧ ((s.feed.channels.get c).state = .closed ∨ (s.feed.channels.get c).state = .opened →
            t.feed.channels.get c = s.feed.channels.get c))

/-- R173: Set Notices replaces the notice mask in every job state. -/
def Obligations.SetNoticesResult : Prop :=
  ∀ (tag mask : Byte) (s : State), ready s →
    ∃ t : State, exec (.setNotices tag mask) s = .next t ∧ unchangedBut [.feed] s t
      ∧ answered { s with feed := { s.feed with mask := mask } } t tag 0x14 .done []

/-- R16 to R19: the nine Start Job checks in order, each with the lowest plane that fails it and the value it reports: GAP and TRIPLE the
lowest column, SEAM the lowest port of the first pair or entry that fails in R18's order (a pair named twice fails every plane
examined), DEPTH the least depth that would pass, OFFLINE the lowest port; and the job starts exactly when all pass. -/
def Obligations.StartChecksInOrder : Prop :=
  ∀ (tag : Byte) (s : State), ready s → s.job.state = .idle →
    let g := s.geo
    let fails := fun (detail plane : Nat) (value : Nat) => ∃ t : State, exec (.startJob tag) s = .next t ∧ unchangedBut [.feed] s t
      ∧ answered s t tag 0x15 .check (leBytes 1 detail ++ leBytes 1 plane ++ leBytes 2 value)
    ((∀ p : Plane, ¬isUsed g p) → fails 1 0 0)
      ∧ (∀ p : Plane, isHeadless g p → (∀ q < p, ¬isHeadless g q) → fails 2 p.val 0)
      ∧ ((∃ p : Plane, isUsed g p) → (∀ p : Plane, ¬isHeadless g p) → s.motion.ratio = none → fails 3 0 0)
      ∧ ((∃ p : Plane, isUsed g p) → (∀ p : Plane, ¬isHeadless g p) → s.motion.ratio ≠ none → s.memory.plan = none → fails 4 0 0)
      ∧ (passes4 s → ∀ (p : Plane) (c : Nat), isGap g p c →
          (∀ q < p, ∀ b < (g.planes.get q).width, ∃ h : Port, reaches g q h b) → fails 5 p.val c)
      ∧ (recordsOk s → passes5 s → ∀ p : Plane, ∀ c < 19456, isTriple g p c → (∀ b < c, ¬isTriple g p b) →
          (∀ q < p, ∀ b < 19456, ¬isTriple g q b) → fails 6 p.val c)
      ∧ (recordsOk s → passes6 s → ∀ p : Plane, isUsed g p → (∀ q < p, isUsed g q → isSewn g q) →
          (∀ a b : Port, isBare g p a b → (∀ a' < a, ∀ b' : Port, ¬isBare g p a' b') → fails 7 p.val a.val)
          ∧ ((∀ a b : Port, ¬isBare g p a b) → ∀ e : SeamIx, isBad g p e → (∀ e' < e, ¬isBad g p e') →
            fails 7 p.val (lowerPort g e))
          ∧ ((∀ a b : Port, ¬isBare g p a b) → (∀ e : SeamIx, ¬isBad g p e) →
            ∀ e : SeamIx, isTwice g e → (∀ e' < e, ¬isTwice g e') → fails 7 p.val (lowerPort g e)))
      ∧ (recordsOk s → passes7 s → ∀ p : Plane, isShallow s p → (∀ q < p, ¬isShallow s q) →
          ∀ (h : Port) (j : RowIx), hasRow g p h j →
          (∀ (h' : Port) (j' : RowIx), hasRow g p h' j' → offsetOf g h' j' ≤ offsetOf g h j) →
          ∀ (q : Plane) (f : Port) (k : RowIx), hasRow g q f k →
          (∀ (q' : Plane) (f' : Port) (k' : RowIx), hasRow g q' f' k' → offsetOf g f k ≤ offsetOf g f' k') →
          fails 8 p.val (offsetOf g h j - offsetOf g f k + 2))
      ∧ (recordsOk s → passes8 s → ∀ (p : Plane) (h : Port), isAway s p h → (∀ h' < h, ¬isAway s p h') →
          (∀ q < p, ∀ h' : Port, ¬isAway s q h') → fails 9 p.val h.val)
      ∧ (recordsOk s → ((passes8 s ∧ ∀ (p : Plane) (h : Port), ¬isAway s p h) ↔ startCheck s = none))
      ∧ (startCheck s = none → ∀ (p : Plane) (h : Port), ¬isAway s p h)

/-- R17 to R19: when every check passes, each column of a configured plane below its width lies in the spans of one or two heads
in use on it; where it lies in two, exactly one seam entry names the two, its right head begins inside the left and ends
beyond it, and the column lies in its overlap of at most 64 columns; and each ring is deep enough for its rows. -/
def Obligations.ChecksGiveCoverage : Prop :=
  ∀ s : State, startCheck s = none →
    (∃ p : Plane, (s.geo.planes.get p).width ≠ 0) ∧ s.motion.ratio.isSome ∧ s.memory.plan.isSome
    ∧ ∀ p : Plane, (s.geo.planes.get p).width ≠ 0 →
      (∀ c : Nat, c < (s.geo.planes.get p).width →
        (∃ a : Port, s.geo.covering p c = [a])
          ∨ ∃ a b : Port, s.geo.covering p c = [a, b] ∧ a ≠ b
            ∧ ∃ (e : SeamIx) (l : Port), (s.geo.seams.get e).left = some l
              ∧ ((l = a ∧ (s.geo.seams.get e).right = b) ∨ (l = b ∧ (s.geo.seams.get e).right = a))
              ∧ (s.geo.heads.get (s.geo.seams.get e).right).first ≤ c ∧ c ≤ (s.geo.heads.get l).last
              ∧ (s.geo.heads.get l).first < (s.geo.heads.get (s.geo.seams.get e).right).first
              ∧ (s.geo.heads.get l).last < (s.geo.heads.get (s.geo.seams.get e).right).last
              ∧ (s.geo.heads.get l).last - (s.geo.heads.get (s.geo.seams.get e).right).first + 1 ≤ 64
              ∧ ∀ d : SeamIx, (s.geo.seams.get d).names a b = true → d = e)
        ∧ (∀ (h g : Port) (j k : RowIx), (s.geo.heads.get h).plane = some p → s.geo.inUse g = true →
            j.val < (s.geo.heads.get h).rows → k.val < (s.geo.heads.get g).rows →
            (s.geo.heads.get h).d.get j + 2 ≤ s.memory.depth p + (s.geo.heads.get g).d.get k)

/-- R149, R150, R68: a Start Job in any other state than IDLE is answered STATE; one whose checks pass starts the job: the
Motion Unit's, the Placement Unit's and the Ring Manager's job state begins anew, and a first copy with source CONTINUOUS is
placed at S = 1 (log 10). -/
def Obligations.StartJobResult : Prop :=
  ∀ (tag : Byte) (s : State), ready s →
    (s.job.state ≠ .idle → ∃ t : State, exec (.startJob tag) s = .next t ∧ refused s t tag 0x15 .state)
    ∧ (s.job.state = .idle → startCheck s = none →
      let first := match s.composer.pages with | e :: _ => e.first | [] => s.composer.nextSequence
      let lead := (s.composer.entryOf first).filter (fun e => e.source == .continuous)
      ∃ t : State, exec (.startJob tag) s = .next t
        ∧ unchangedBut [.job, .motion, .place, .rings, .ports, .counters, .feed] s t
        ∧ answeredAfter [.notice (.jobState .running .start)] s t tag 0x15 .done []
        ∧ t.job = ⟨.running, .none⟩
        ∧ t.motion = { s.motion with acc := 0, p := 0, h := 0, lastBoundary := none, period := none }
        ∧ (∀ i : PdIx, t.place.triggers.get i = { s.place.triggers.get i with lockoutEnd := 0 })
        ∧ t.place.list = (lead.map (fun e => ⟨first, 1, e.length, e.gap, e.baseOf first⟩)).toList
        ∧ t.place.floor = (match lead with | some e => 1 + e.length + e.gap | none => 0)
        ∧ t.place.nextSequence = first + (if lead.isSome then 1 else 0)
        ∧ (∀ (h : Port) (k : RowIx), s.geo.inUse h = true → k.val < (s.geo.heads.get h).rows →
            (s.geo.heads.get h).d.get k ≤ t.place.dMax)
        ∧ (t.place.dMax = 0 ∨ ∃ (h : Port) (k : RowIx), s.geo.inUse h = true ∧ k.val < (s.geo.heads.get h).rows
            ∧ (s.geo.heads.get h).d.get k = t.place.dMax)
        ∧ (∀ p : Plane, t.rings.get p = if (s.geo.planes.get p).width ≠ 0 then
            { s.rings.get p with frontier := -1, retire := -1 } else s.rings.get p)
        ∧ ∀ h : Port, t.ports.get h = { s.ports.get h with rows := (t.ports.get h).rows }
            ∧ ∀ k : RowIx, t.row h k = if s.geo.inUse h = true then { s.row h k with release := -1 } else s.row h k)

/-- R151, R109: Stop Job outside RUNNING is answered STATE; in RUNNING with placements on the web it takes the job to STOPPING and
abandons a composition in flight. -/
def Obligations.StopJobResult : Prop :=
  ∀ (tag : Byte) (s : State), ready s →
    (s.job.state ≠ .running → ∃ t : State, exec (.stopJob tag) s = .next t ∧ refused s t tag 0x16 .state)
    ∧ (s.job.state = .running → s.place.list ≠ [] →
      ∃ t : State, exec (.stopJob tag) s = .next t ∧ unchangedBut [.job, .composer, .counters, .feed] s t
        ∧ answeredAfter [.notice (.jobState .stopping .stop)] s t tag 0x16 .done []
        ∧ t.job = { s.job with state := .stopping } ∧ t.composer = { s.composer with flight := none })

/-- R151 to R154: Abort, Stop Job with no placement, and stop completion enter IDLE: the JOB STATE notices, the MAP SWITCHED
notices in plane order, and each block's clearing; with no channel DRAINING nothing else changes, and the reply of a request comes
after its notices. R153, R154, R168, R169: with channels DRAINING, the same notices come first; then each such channel with no frame
awaiting handling goes to CLOSED and the order is served, with the CHANNEL STATE notices of both, in turn (in channel order, the
model's choice, log 30); the reply comes last. That a channel whose taken template line is still being written counts as having
a frame awaiting handling, and so stays DRAINING, is the model's choice (log 8). A patch being written is given up with the
slots (log 9). -/
def Obligations.IdleEntryResults : Prop :=
  (∀ (tag : Byte) (s : State), awake s → storesOk s → orderOk s →
    let blocks := [Block.job, .motion, .place, .composer, .pool, .rings, .ports, .geo, .counters, .feed]
    let closed := closedInTurn s.memory.slots (closingAtIdle s) s.feed.channels s.feed.order
    let enters := fun (first last : List Sign) (t : State) => unchangedBut blocks s t ∧ idleCleared s t
      ∧ t.job = { s.job with state := .idle }
      ∧ linkKept s t ∧ t.feed.requests = s.feed.requests ∧ t.feed.awaiting = s.feed.awaiting ∧ drainsClosed s t
      ∧ (∀ c : DataCh, t.feed.channels.get c = closed.1.get c) ∧ t.feed.order = closed.2.1
      ∧ told (first ++ switchSigns s ++ closed.2.2 ++ last) s t
    (s.feed.replies.length < 8 →
      ∃ t : State, exec (.abort tag) s = .next t
        ∧ enters (if s.job.state = .idle then [] else [.notice (.jobState .idle .abort)]) [.reply ⟨tag, 0x17, .done, []⟩] t)
    ∧ (s.feed.replies.length < 8 → s.job.state = .running → s.place.list = [] →
      ∃ t : State, exec (.stopJob tag) s = .next t
        ∧ enters [.notice (.jobState .stopping .stop), .notice (.jobState .idle .stopComplete)] [.reply ⟨tag, 0x16, .done, []⟩] t)
    ∧ (s.job.state = .stopping → s.place.list = [] →
      ∃ t : State, exec .stopCompletion s = .next t ∧ repliesKept s t ∧ enters [.notice (.jobState .idle .stopComplete)] [] t))
  ∧ ∀ (tag : Byte) (s : State), awake s → storesOk s → (∀ c : DataCh, (s.feed.channels.get c).state ≠ .draining) →
    let blocks := [Block.job, .motion, .place, .composer, .pool, .rings, .ports, .geo, .counters, .feed]
    (s.feed.replies.length < 8 →
      ∃ t : State, exec (.abort tag) s = .next t ∧ unchangedBut blocks s t ∧ idleCleared s t
        ∧ t.job = { s.job with state := .idle }
        ∧ answeredAfter ((if s.job.state = .idle then [] else [.notice (.jobState .idle .abort)]) ++ switchSigns s) s t tag 0x17
            .done [])
    ∧ (s.feed.replies.length < 8 → s.job.state = .running → s.place.list = [] →
      ∃ t : State, exec (.stopJob tag) s = .next t ∧ unchangedBut blocks s t ∧ idleCleared s t
        ∧ t.job = { s.job with state := .idle }
        ∧ answeredAfter ([.notice (.jobState .stopping .stop), .notice (.jobState .idle .stopComplete)] ++ switchSigns s) s t tag
            0x16 .done [])
    ∧ (s.job.state = .stopping → s.place.list = [] →
      ∃ t : State, exec .stopCompletion s = .next t ∧ unchangedBut blocks s t ∧ idleCleared s t
        ∧ t.job = { s.job with state := .idle }
        ∧ announced ([.notice (.jobState .idle .stopComplete)] ++ switchSigns s) s t)

/-- R155, R170: Restart does what Abort does and closes every data channel, clears every counter, flag and the halt cause, sets the
raw encoder count to 0, discards the frames awaiting handling, and takes each OFFLINE port whose fault input is not
asserted to READY; the notices come in R155's order, the reply after them (the clearing first, log 6; a template line being written is
discarded, log 9). R89: a data frame half received will not be handled. -/
def Obligations.RestartResult : Prop :=
  ∀ (tag : Byte) (s : State), ready s → storesOk s →
    let back := fun (h : Port) => decide ((s.ports.get h).state = .offline ∧ s.pins.fault.get h = false)
    let readied := fun (h : Port) => if back h = true then
        { s.ports.get h with state := .ready, faultCount := 0, keepWet := { (s.ports.get h).keepWet with
          start := s.now, deferred := false, armed := decide (0 < (s.ports.get h).keepWet.interval) } }
      else s.ports.get h
    let s1 := { s with
      motion := { s.motion with rawCount := 0 }, ports := .ofFun readied,
      geo := { s.geo with offlineFrom := .ofFun (fun h => if back h = true then none else s.geo.offlineFrom.get h) } }
    let signs := (if s.job.state = .idle then [] else [Sign.notice (.jobState .idle .restart)]) ++ switchSigns s
      ++ (allDataCh.filter (fun c => decide ((s.feed.channels.get c).state ≠ .closed))).map
          (fun c => .notice (.channelState c .closed))
      ++ (allPorts.filter back).map (fun h => .notice (.headState h .ready))
    ∃ t : State, exec (.restart tag) s = .next t ∧ idleCleared s1 t ∧ sameBlock s t .outside
      ∧ t.job = ⟨.idle, .none⟩
      ∧ t.templates = { s.templates with writing := none }
      ∧ (∀ c : CounterId, t.countOf c = 0 ∧ t.isAnnounced c = false)
      ∧ linkKept { s with feed := { s.feed with incoming := s.feed.incoming.map (fun i =>
          { i with discarded := if i.kind = .request then i.discarded else true }) } } t
      ∧ t.feed.requests = s.feed.requests ∧ t.feed.awaiting = [] ∧ t.feed.order = []
      ∧ (∀ c : DataCh, t.feed.channels.get c = { s.feed.channels.get c with state := .closed })
      ∧ told (signs ++ [.reply ⟨tag, 0x18, .done, []⟩])
          { s with counters := t.counters, feed := { s.feed with noticesLost := false } } t

/-! ### Events: the nozzle map and the inputs -/

/-- R11: a pending switch whose E − 1 the retire point has reached completes: the staged statuses of the plane's heads in use become
active, the pending flag clears, and a MAP SWITCHED notice is placed. -/
def Obligations.MapSwitchResult : Prop :=
  ∀ (p : Plane) (s : State), awake s → storesOk s → (s.geo.switches.get p).pending = true →
    ((s.geo.switches.get p).serial : Int) - 1 ≤ (s.rings.get p).retire →
    ∃ t : State, exec (.mapSwitchComplete p) s = .next t ∧ unchangedBut [.geo, .counters, .feed] s t
      ∧ announced [.notice (.mapSwitched p)] s t
      ∧ t.geo = { s.geo with active := t.geo.active, switches := t.geo.switches }
      ∧ (∀ q : Plane, t.geo.switches.get q =
          if q = p then { s.geo.switches.get p with pending := false } else s.geo.switches.get q)
      ∧ ∀ (h : Port) (k : RowIx) (n : Fin 768), nozzleStatus t.geo.active h k.val n.val =
          if s.planeOf h = some p then nozzleStatus s.geo.staged h k.val n.val else nozzleStatus s.geo.active h k.val n.val

/-- R40 to R42, R44, R45, R50: what accepted encoder changes do when they make no boundary: both inputs together are an illegal
transition; one alone is a count, which moves the raw encoder count in every state and the accumulator in a job. -/
def Obligations.EncoderCounts : Prop :=
  ∀ s : State, awake s → motionOk s →
    (s.motion.inputA.reached = true → s.motion.inputB.reached = true →
      ∃ t : State, exec .encoderFilterAccept s = .next t ∧ unchangedBut [.motion, .counters, .feed] s t
        ∧ t.motion = s.motion.taken ∧ announced [.count .encoderErrors] s t)
    ∧ (isForward s.motion → (s.job.state = .idle ∨ ∃ r ∈ s.motion.ratio, s.motion.acc + r.n < r.m) →
      ∃ t : State, exec .encoderFilterAccept s = .next t ∧ unchangedBut [.motion, .feed] s t ∧ announced [] s t
        ∧ t.motion = { s.motion.taken with
            rawCount := s.motion.rawCount + 1,
            acc := if s.job.state = .idle then s.motion.acc else s.motion.acc + (s.motion.ratio.elim 0 (·.n)) })
    ∧ (isReverse s.motion → (s.job.state = .idle ∨ ∃ r ∈ s.motion.ratio, r.n ≤ s.motion.acc) →
      ∃ t : State, exec .encoderFilterAccept s = .next t ∧ unchangedBut [.motion, .feed] s t ∧ announced [] s t
        ∧ t.motion = { s.motion.taken with
            rawCount := s.motion.rawCount - 1,
            acc := if s.job.state = .idle then s.motion.acc else s.motion.acc - (s.motion.ratio.elim 0 (·.n)) })

/-- R44, R45, R47, R48, R52, R53, R156: re-travel: a forward boundary at or below H, and every reverse boundary, moves P by one, counts
as re-travel and applies a pending ratio; a reverse boundary that leaves H − P above the reverse limit halts a job in
RUNNING or STOPPING with cause REVERSE: no frontier moves, and each retire point and ring is what the ABANDONED releases leave
(R118 to R121, R140). That the re-travel count comes before the JOB STATE notice is the model's choice (log 13). -/
def Obligations.ReTravelBoundaries : Prop :=
  ∀ (s : State) (r : Ratio), awake s → motionOk s → s.job.state ≠ .idle → s.motion.ratio = some r →
    (isForward s.motion → r.m ≤ s.motion.acc + r.n → s.motion.p < s.motion.h →
      ∃ t : State, exec .encoderFilterAccept s = .next t ∧ unchangedBut [.motion, .counters, .feed] s t
        ∧ announced [.count .reTravelBoundaries] s t
        ∧ t.motion = Motion.rescaled { s.motion.taken with
            rawCount := s.motion.rawCount + 1, p := s.motion.p + 1, lastBoundary := some ⟨s.now, false⟩ }
            r (s.motion.acc + r.n - r.m))
    ∧ (isReverse s.motion → s.motion.acc < r.n →
      let m := Motion.rescaled { s.motion.taken with
        rawCount := s.motion.rawCount - 1, p := s.motion.p - 1, lastBoundary := some ⟨s.now, false⟩ } r (s.motion.acc + r.m - r.n)
      ((s.job.state = .halted ∨ s.motion.h - (s.motion.p - 1) ≤ s.motion.reverseLimit) →
        ∃ t : State, exec .encoderFilterAccept s = .next t ∧ unchangedBut [.motion, .counters, .feed] s t ∧ t.motion = m
          ∧ announced [.count .reTravelBoundaries] s t)
      ∧ (s.job.state ≠ .halted → (s.motion.reverseLimit : Int) < s.motion.h - (s.motion.p - 1) → rowsOk s →
        ∃ t : State, exec .encoderFilterAccept s = .next t
          ∧ unchangedBut [.motion, .job, .composer, .rings, .ports, .counters, .feed] s t ∧ t.motion = m
          ∧ t.job = ⟨.halted, .reverse⟩ ∧ t.composer = { s.composer with flight := none }
          ∧ announced [.count .reTravelBoundaries, .notice (.jobState .halted .reverse)] s t
          ∧ (∀ h : Port, t.ports.get h = { s.ports.get h with rows := (t.ports.get h).rows, arbiter := [] })
          ∧ (∀ (h : Port) (k : RowIx), s.geo.inUse h = true → t.row h k = (s.row h k).halted)
          ∧ ∀ p : Plane, (t.rings.get p).frontier = (s.rings.get p).frontier ∧ (ringsOk s → retireOk s → retiredTo p s t)))

/-- R46, R53, R54: the Motion Unit at a print tick: P and H become H + 1, and T is the time since the last boundary when that was a print
tick at most 16,777,215 ticks ago, and invalid otherwise. R71 to R73, R95, R108: the first placement retires when H has reached
S + length + D_max, in RUNNING and STOPPING alone; its copy is counted and announced with a COPY PRINTED notice, and leaves the Page Queue if it is its
entry's last; a Composer that has not passed it skips it and its patches. That the count and its FIRST EVENT notice come before
COPY PRINTED, and both before the rows' notices, is the model's choice (log 13). -/
def Obligations.PrintTickUnits : Prop :=
  (∀ (s : State) (r : Ratio), awake s → motionOk s → tickDue s → s.motion.ratio = some r →
     ∃ t : State, exec .encoderFilterAccept s = .next t
       ∧ unchangedBut [.motion, .place, .composer, .pool, .rings, .ports, .counters, .feed] s t
       ∧ t.motion = Motion.rescaled { s.motion.taken with
           rawCount := s.motion.rawCount + 1, p := s.motion.h + 1, h := s.motion.h + 1, lastBoundary := some ⟨s.now, true⟩,
           period := match s.motion.lastBoundary with
             | some ⟨stamp, true⟩ => if s.now - stamp ≤ 16777215 then some (s.now - stamp) else none
             | _ => none } r (s.motion.acc + r.n - r.m))
  ∧ (∀ s : State, awake s → motionOk s → tickDue s →
      ∃ t : State, exec .encoderFilterAccept s = .next t ∧
        let goes := (s.job.state = .running ∨ s.job.state = .stopping)
          ∧ ∃ q ∈ s.place.list.head?, q.start + q.length + s.place.dMax ≤ s.motion.h + 1
        (¬goes → t.place = s.place ∧ t.composer = s.composer ∧ t.pool = s.pool
          ∧ t.countOf .copiesPrinted = s.countOf .copiesPrinted)
        ∧ (goes → ∀ q ∈ s.place.list.head?,
            t.place = { s.place with list := s.place.list.drop 1 }
              ∧ t.countOf .copiesPrinted = saturatingInc (s.countOf .copiesPrinted) ∧ t.isAnnounced .copiesPrinted = true
              ∧ (let told := tell [.count .copiesPrinted, .notice (.copyPrinted q.copy)] s
                told.feed.notices <+: t.feed.notices ∧ (told.feed.noticesLost = true → t.feed.noticesLost = true))
              ∧ t.composer.pages = (if (∃ e ∈ s.composer.pages.head?, e.first + e.copies = q.copy + 1) then s.composer.pages.drop 1
                else s.composer.pages)
              ∧ t.composer.nextSequence = s.composer.nextSequence ∧ t.composer.nextSerial = s.composer.nextSerial
              ∧ (if s.composer.copy ≤ q.copy then
                  t.composer.copy = q.copy + 1 ∧ t.composer.line = 0 ∧ t.composer.flight = none
                    ∧ t.pool.index = s.pool.index.filter (fun e => decide (q.copy < e.copy))
                else t.composer.copy = s.composer.copy ∧ t.composer.line = s.composer.line
                  ∧ t.composer.flight = s.composer.flight ∧ t.composer.marks = s.composer.marks ∧ t.pool = s.pool)))

/-- R55, R69, R130, R131, R134, R135, R140: a row of a working port at a print tick: its previous line is forced or skipped, and then
the line due at H − D is made due at the tick's time plus the fine delay, queued for a late load, or underrun; in HALTED it
is reported due and ABANDONED. R134, R119, R138: the forced fires, drop fires and skipped lines of each port and the underruns of
each plane rise by exactly the rows concerned. R118 to R121: each plane's frontier becomes the greatest serial taken as due, if that
is above it, and its retire point and ring are what the UNDERRUN, SKIPPED and ABANDONED releases leave. R131: a port that does not
work is unchanged, as is a row its head does not have. R138, R142: a forced fire of an inked line restarts the keep-wet timer. -/
def Obligations.PrintTickRows : Prop :=
  (∀ (s : State) (h : Port) (k : RowIx) (p : Plane), awake s → motionOk s → rowsOk s → ringsOk s → tickDue s →
    s.working h = true → s.planeOf h = some p → k.val < (s.geo.heads.get h).rows →
    ∃ t : State, exec .encoderFilterAccept s = .next t ∧
      let r := (s.row h k).settled s.now (s.geo.heads.get h).window
      let due := dueAt t.place.list (s.motion.h + 1 - (s.geo.heads.get h).d.get k)
      let delay := match t.motion.period with | some T => (s.geo.heads.get h).f.get k * T / 256 | none => 0
      (s.job.state = .halted →
        t.row h k = (match due with
          | some serial => { s.row h k with release := max (s.row h k).release serial }
          | none => s.row h k)
        ∧ ∀ serial ∈ due, (serial : Int) ≤ (t.rings.get p).frontier)
      ∧ (s.job.state ≠ .halted →
        ((s.row h k).due ≠ none → t.isAnnounced
            (if (s.row h k).load = .loaded ∧ (s.row h k).window = none then .forcedFires h else .skippedLines h) = true)
        ∧ (due = none → t.row h k = r)
        ∧ ∀ serial ∈ due, (serial : Int) ≤ (t.rings.get p).frontier
          ∧ (r.line ≠ none → t.row h k = { r with due := some (s.now + delay) })
          ∧ (r.line = none → (s.rings.get p).lookup serial = none →
              t.row h k = { r with release := max r.release serial } ∧ t.isAnnounced (.underruns p) = true)
          ∧ ∀ position ∈ (s.rings.get p).lookup serial, r.line = none → r.release < (serial : Int) →
              t.row h k = { r with load := .queued, line := some ⟨serial, position⟩, due := some (s.now + delay), joined := s.now }
                ∧ k ∈ (t.ports.get h).arbiter)
      ∧ (let acts := fun (g : Port) (j : RowIx) => s.job.state ≠ .halted ∧ s.working g = true ∧ j.val < (s.geo.heads.get g).rows
         let passed := fun (g : Port) (j : RowIx) => acts g j ∧ (s.row g j).due ≠ none
         let forced := fun (g : Port) (j : RowIx) => passed g j ∧ (s.row g j).load = .loaded ∧ (s.row g j).window = none
         let raised := fun (c : CounterId) (n : Nat) => (t.countOf c).toNat = min ((s.countOf c).toNat + n) 4294967295
         raised (.forcedFires h) (allRows.filter (fun j => decide (forced h j))).length
          ∧ raised (.dropFires h) (allRows.filter (fun j => decide (forced h j ∧ (s.row h j).inked = true))).length
          ∧ raised (.skippedLines h) (allRows.filter (fun j => decide (passed h j ∧ ¬forced h j))).length
          ∧ (let settled := fun (g : Port) (j : RowIx) => (s.row g j).settled s.now (s.geo.heads.get g).window
             let asks := fun (g : Port) (j : RowIx) => dueAt t.place.list (s.motion.h + 1 - (s.geo.heads.get g).d.get j)
             let absent := fun (g : Port) (j : RowIx) => acts g j ∧ s.planeOf g = some p ∧ (settled g j).line = none
              ∧ ∃ serial ∈ asks g j, (s.rings.get p).lookup serial = none
             (∀ (g : Port) (j : RowIx), acts g j → s.planeOf g = some p → (settled g j).line = none →
              ∀ serial ∈ asks g j, (settled g j).release < (serial : Int)) →
             raised (.underruns p)
              (allPorts.flatMap (fun g => allRows.filter (fun j => decide (absent g j)))).length)))
  ∧ ∀ s : State, awake s → motionOk s → tickDue s →
    ∃ t : State, exec .encoderFilterAccept s = .next t ∧
      let acts := fun (g : Port) (j : RowIx) => s.working g = true ∧ j.val < (s.geo.heads.get g).rows
      let asks := fun (g : Port) (j : RowIx) => dueAt t.place.list (s.motion.h + 1 - (s.geo.heads.get g).d.get j)
      let inkForced := fun (g : Port) => s.job.state ≠ .halted ∧ ∃ j : RowIx, acts g j ∧ (s.row g j).due ≠ none
        ∧ (s.row g j).load = .loaded ∧ (s.row g j).window = none ∧ (s.row g j).inked = true
      (∀ p : Plane, (s.rings.get p).frontier ≤ (t.rings.get p).frontier
        ∧ (∀ (g : Port) (j : RowIx), acts g j → s.planeOf g = some p →
          ∀ serial ∈ asks g j, (serial : Int) ≤ (t.rings.get p).frontier)
        ∧ ((t.rings.get p).frontier = (s.rings.get p).frontier
          ∨ ∃ (g : Port) (j : RowIx), acts g j ∧ s.planeOf g = some p ∧ ∃ serial ∈ asks g j, (t.rings.get p).frontier = serial)
        ∧ (ringsOk s → retireOk s → retiredTo p s t))
      ∧ (∀ g : Port, s.working g = false → t.ports.get g = s.ports.get g)
      ∧ (∀ (g : Port) (j : RowIx), (s.geo.heads.get g).rows ≤ j.val → t.row g j = s.row g j)
      ∧ ∀ g : Port, t.ports.get g = { s.ports.get g with
          rows := (t.ports.get g).rows, arbiter := (t.ports.get g).arbiter,
          keepWet := if inkForced g then
              { (s.ports.get g).keepWet with start := s.now, deferred := false, armed := decide (0 < (s.ports.get g).keepWet.interval) }
            else (s.ports.get g).keepWet }

/-- R69: of placements ordered as R61 has them, the line due at a row whose offset is d is line H − d − S of the placement with
S ≤ H − d < S + length, under that placement's base serial, and none when no placement covers H − d. R70: the answer does not depend
on a placement made at the same tick, whose S is at least H + 1, nor on one retired at it, whose S + length + D_max is at most H. -/
def Obligations.DueLineIndependence : Prop :=
  (∀ (list : List Placement) (h : Int) (d : Nat),
    list.Pairwise (fun a b : Placement => a.start + a.length + a.gap ≤ b.start) →
    (∀ q ∈ list, q.start ≤ h - d → h - d < q.start + q.length → dueAt list (h - d) = some (q.base + (h - d - q.start).toNat))
    ∧ ((∀ q ∈ list, ¬(q.start ≤ h - d ∧ h - d < q.start + q.length)) → dueAt list (h - d) = none))
  ∧ ∀ (list : List Placement) (q : Placement) (h : Int) (d dMax : Nat), d ≤ dMax →
    (h + 1 ≤ q.start → dueAt (list ++ [q]) (h - d) = dueAt list (h - d))
    ∧ (q.start + q.length + dMax ≤ h → dueAt (q :: list) (h - d) = dueAt list (h - d))

/-- R60, R63 to R65: an accepted change of a product-detect input: a selected edge is judged by the tests of R63 in order, and its
outcome is counted, placed or ignored. -/
def Obligations.ProductEdgeResult : Prop :=
  ∀ (i : PdIx) (s : State), awake s → (s.place.triggers.get i).input.reached = true →
    let x := s.place.triggers.get i
    let level := !x.input.level
    let selected := x.edge = .both ∨ (x.edge = .rising ∧ level = true) ∨ (x.edge = .falling ∧ level = false)
    let heard := { x with input := ⟨level, none, false⟩ }
    let locked := { heard with lockoutEnd := s.motion.h + x.lockout }
    let next := s.composer.entryOf s.place.nextSequence
    ∃ t : State, exec (.pdFilterAccept i) s = .next t ∧ unchangedBut [.place, .counters, .feed] s t ∧
      (let ignored := fun (signs : List Sign) =>
          t.place = { s.place with triggers := s.place.triggers.put i heard } ∧ announced signs s t
       let counted := fun (c : CounterId) =>
          t.place = { s.place with triggers := s.place.triggers.put i locked } ∧ announced [.count c] s t
       (¬selected ∨ s.job.state = .idle ∨ s.job.state = .halted → ignored [])
       ∧ (selected → s.job.state = .running ∨ s.job.state = .stopping →
          (if s.motion.p < s.motion.h then ignored [.count .reTravelEdges]
           else if s.motion.h < x.lockoutEnd then ignored [.count .lockoutEdges]
           else if (∃ e ∈ next, e.source ≠ .pd i) then ignored []
           else if s.job.state = .stopping ∨ next = none then counted .missedProducts
           else if 64 ≤ s.place.list.length then counted .missedProducts
           else ∀ e ∈ next,
            if s.motion.h + 1 + e.top < s.place.floor then counted .earlyTriggers
            else announced [] s t
              ∧ t.place = { s.place with
                  triggers := s.place.triggers.put i locked,
                  list := s.place.list ++ [⟨s.place.nextSequence, s.motion.h + 1 + e.top, e.length, e.gap,
                    e.base + (s.place.nextSequence - e.first) * e.length⟩],
                  floor := s.motion.h + 1 + e.top + e.length + e.gap, nextSequence := s.place.nextSequence + 1 })))

/-- R67: in RUNNING, with a next unplaced copy whose source is CONTINUOUS, a list of fewer than 64 placements and H at or above the
last one's S, the copy is placed at the greater of the floor and H + 1; no lockout starts. -/
def Obligations.ContinuousPlacementResult : Prop :=
  ∀ (s : State) (e : PageEntry), awake s → s.job.state = .running → s.composer.entryOf s.place.nextSequence = some e →
    e.source = .continuous → s.place.list.length < 64 → (∀ q ∈ s.place.list.getLast?, q.start ≤ s.motion.h) →
    ∃ t : State, exec .continuousPlacement s = .next t ∧ unchangedBut [.place, .feed] s t ∧ announced [] s t
      ∧ (let start := max s.place.floor (s.motion.h + 1)
        t.place = { s.place with
          list := s.place.list ++ [⟨s.place.nextSequence, start, e.length, e.gap,
            e.base + (s.place.nextSequence - e.first) * e.length⟩],
          floor := start + e.length + e.gap, nextSequence := s.place.nextSequence + 1 })

/-! ### Events: the head ports -/

/-- R122, R127, R128, R156, R157: a port whose fault count reaches 100 goes OFFLINE with a HEAD STATE notice and its timer disarmed.
In a job with its head in use it sets the offline-from serial to the frontier + 1, its rows give up their lines, the retire
point is formed again, and with policy HALT the job halts or a later halt counts. A halt moves no frontier, and the retire points
and rings of the other planes are what its ABANDONED releases leave (R118 to R121, R140). The fault count of an OFFLINE port is 0 (the
model's choice, log 11). -/
def Obligations.HeadFaultResult : Prop :=
  ∀ (h : Port) (s : State), awake s → rowsOk s → (s.ports.get h).state = .ready → 100 ≤ (s.ports.get h).faultCount →
    let disarmed := { (s.ports.get h).keepWet with armed := false, deferred := false }
    (s.job.state = .idle ∨ s.planeOf h = none →
      ∃ t : State, exec (.headFault h) s = .next t ∧ unchangedBut [.ports, .counters, .feed] s t
        ∧ announced [.notice (.headState h .offline)] s t
        ∧ t.ports = s.ports.put h { s.ports.get h with state := .offline, faultCount := 0, keepWet := disarmed })
    ∧ ∀ p : Plane, s.job.state ≠ .idle → s.planeOf h = some p →
      let halts := (s.geo.heads.get h).policy = .halt ∧ s.job.state ≠ .halted
      ∃ t : State, exec (.headFault h) s = .next t
        ∧ unchangedBut [.geo, .job, .composer, .rings, .ports, .counters, .feed] s t
        ∧ t.geo = { s.geo with offlineFrom := s.geo.offlineFrom.put h (some ((s.rings.get p).frontier + 1).toNat) }
        ∧ t.ports.get h = ⟨.offline, 0, (t.ports.get h).rows, [], disarmed⟩ ∧ (∀ k : RowIx, t.row h k = (s.row h k).abandoned)
        ∧ (t.rings.get p).frontier = (s.rings.get p).frontier ∧ retiredTo p s t
        ∧ (halts → t.job = ⟨.halted, .headFault h⟩ ∧ t.composer = { s.composer with flight := none }
          ∧ (∀ g : Port, g ≠ h → s.geo.inUse g = true → (t.ports.get g).arbiter = [] ∧ ∀ k : RowIx, t.row g k = (s.row g k).halted)
          ∧ ∀ q : Plane, q ≠ p → (t.rings.get q).frontier = (s.rings.get q).frontier ∧ (ringsOk s → retireOk s → retiredTo q s t))
        ∧ (¬halts → t.job = s.job ∧ t.composer = s.composer ∧ (∀ g : Port, g ≠ h → t.ports.get g = s.ports.get g)
          ∧ ∀ q : Plane, q ≠ p → t.rings.get q = s.rings.get q)
        ∧ announced ([.notice (.headState h .offline)]
            ++ (if (s.geo.heads.get h).policy ≠ .halt then []
              else if s.job.state = .halted then [.count .laterHalts] else [.notice (.jobState .halted (.headFault h))])) s t

/-- R118, R132, R133: with no load running on a port the row at the front of its arbiter queue is granted: it leaves the queue, becomes
LOADING for ⌈n / 2⌉ + 24 ticks, and its serial raises the frontier. R20, R22, R29, R33, R80, R119 to R121: a load that has run its
time leaves in the row one level per nozzle: 0 at or beyond the width and where the head does not own the column; for an owner
its pixel with what its dead neighbours add, clamped to 3 and for a WEAK nozzle to the weak cap. The words in error it reads are
counted in word order (logs 13 and 14; the levels are those of its end, log 15), and its serial is released. -/
def Obligations.LoadResults : Prop :=
  (∀ (s : State) (h : Port) (k : RowIx) (rest : List RowIx), awake s → (s.ports.get h).arbiter = k :: rest →
     ∀ p : Plane, s.planeOf h = some p → (∀ j : RowIx, (s.row h j).load ≠ .loading) →
     ∀ l : PendingLine, (s.row h k).line = some l →
     ∃ t : State, exec (.loadGrant h) s = .next t ∧ unchangedBut [.rings, .ports, .feed] s t ∧ announced [] s t
       ∧ otherRowsKept h k s t ∧ (t.ports.get h).arbiter = rest ∧ (t.ports.get h).keepWet = (s.ports.get h).keepWet
       ∧ t.row h k = { s.row h k with load := .loading, loadEnd := s.now + ((s.geo.heads.get h).nozzles + 1) / 2 + 24 }
       ∧ t.rings = s.rings.put p { s.rings.get p with frontier := max (s.rings.get p).frontier l.serial })
  ∧ (∀ (s : State) (h : Port) (k : RowIx), awake s → s.working h = true → k.val < (s.geo.heads.get h).rows →
      (s.row h k).load = .loading → (∀ j : RowIx, (s.row h j).load = .loading → j = k) → (s.row h k).loadEnd ≤ s.now →
      ∀ p : Plane, s.planeOf h = some p → ∀ l : PendingLine, (s.row h k).line = some l →
      s.memory.ringBase p + l.position < 262144 →
      let block := s.memory.ringBase p + l.position
      let head := s.geo.heads.get h
      let plane := s.geo.planes.get p
      let column := fun (n : Nat) => head.first + n * head.rows + k.val
      let pixel := s.memory.pixel block
      let adds := fun (c : Nat) => if s.dead p l.serial c then [0, plane.add1, plane.add2, plane.add3].getD (pixel c) 0 else 0
      let level := fun (n : Nat) =>
        let c := column n
        let sum := min 3 (pixel c + (if c = 0 then 0 else adds (c - 1)) + adds (c + 1))
        if plane.width ≤ c ∨ s.owner p l.serial c ≠ some h then 0
        else if s.geo.statusFor p l.serial h k.val n = .weak then min sum plane.weakCap else sum
      let read := fun (w : Nat) => decide (∃ n < head.nozzles, column n < plane.width ∧ (column n / 32 = w
        ∨ (0 < column n ∧ (column n - 1) / 32 = w) ∨ (column n + 1 < plane.width ∧ (column n + 1) / 32 = w)))
      ∃ t : State, exec (.loadComplete h) s = .next t ∧ unchangedBut [.rings, .ports, .counters, .feed] s t
        ∧ announced (errorSigns s block read) s t ∧ otherRowsKept h k s t
        ∧ (t.ports.get h).arbiter = (s.ports.get h).arbiter ∧ (t.ports.get h).keepWet = (s.ports.get h).keepWet
        ∧ t.row h k = { s.row h k with
            load := .loaded, data := (List.range head.nozzles).map level,
            inked := decide (∃ n < head.nozzles, 0 < level n), release := max (s.row h k).release l.serial }
        ∧ (t.rings.get p).frontier = (s.rings.get p).frontier ∧ retiredTo p s t
        ∧ ∀ q : Plane, q ≠ p → t.rings.get q = s.rings.get q)

/-- R137 to R139, R142, R116: a LOADED, QUIET row of a job in RUNNING or STOPPING whose due time is reached fires: the head latches its
levels, a window of W ticks starts, an inked line counts a drop fire and restarts the keep-wet timer, a late one counts a
late fire (in that order, log 13), and the row prefetches the line due at H + 1 if the ring holds it. R132: the row then joins the
end of the arbiter queue, before the rows of higher number that joined it at the same instant. -/
def Obligations.FireResult : Prop :=
  ∀ (s : State) (h : Port) (k : RowIx) (due : Nat), awake s → s.job.state = .running ∨ s.job.state = .stopping →
    (s.row h k).load = .loaded → (s.row h k).window = none → (s.row h k).due = some due → due ≤ s.now →
    let head := s.geo.heads.get h
    let wet := (s.ports.get h).keepWet
    let ahead : Option PendingLine := (s.planeOf h).bind fun p => (dueAt s.place.list (s.motion.h + 1 - head.d.get k)).bind fun serial =>
      ((s.rings.get p).lookup serial).map fun position => ⟨serial, position⟩
    ∃ t : State, exec (.fire h k) s = .next t ∧ unchangedBut [.ports, .counters, .feed] s t ∧ otherRowsKept h k s t
      ∧ announced ((if (s.row h k).inked = true then [.count (.dropFires h)] else [])
          ++ (if due < s.now then [.count (.lateFires h)] else [])) s t
      ∧ t.row h k = { s.row h k with
          load := if ahead.isSome then .queued else .empty, line := ahead, due := none, window := some (s.now + head.window),
          latched := (s.row h k).data, joined := if ahead.isSome then s.now else (s.row h k).joined }
      ∧ (ahead = none → (t.ports.get h).arbiter = (s.ports.get h).arbiter)
      ∧ (ahead ≠ none → rowsOk s →
          let after := fun (j : RowIx) => decide ((s.row h j).joined = s.now ∧ k < j)
          (t.ports.get h).arbiter = (s.ports.get h).arbiter.filter (fun j => !after j) ++ k :: (s.ports.get h).arbiter.filter after)
      ∧ (t.ports.get h).keepWet =
          if (s.row h k).inked = true then { wet with start := s.now, deferred := false, armed := decide (0 < wet.interval) } else wet

/-- R139, R142, R144, R145: a window that has run its time leaves its row QUIET. An expired keep-wet timer of a READY port issues its
pulse when every row of the head is QUIET with no due line, and defers it otherwise; a deferred pulse is issued once that
holds: each row enters WINDOW for W ticks, and the timer restarts in mode REPEAT and is disarmed in mode ONCE. -/
def Obligations.WindowAndKeepWetResults : Prop :=
  ∀ (h : Port) (s : State), awake s →
    let port := s.ports.get h
    let wet := port.keepWet
    let head := s.geo.heads.get h
    let allowed := ∀ k : RowIx, k.val < head.rows → (s.row h k).window = none ∧ (s.row h k).due = none
    let pulsed := fun (t : State) => unchangedBut [.ports, .counters, .feed] s t
      ∧ announced [.count (.keepWetPulses h)] s t ∧ (∀ g : Port, g ≠ h → t.ports.get g = s.ports.get g)
      ∧ t.ports.get h = { port with
          rows := (t.ports.get h).rows,
          keepWet := if wet.mode = .repeating then { wet with start := s.now, deferred := false, armed := decide (0 < wet.interval) }
            else { wet with armed := false, deferred := false } }
      ∧ ∀ k : RowIx, t.row h k = if k.val < head.rows then { s.row h k with window := some (s.now + head.window) } else s.row h k
    (∀ (k : RowIx) (e : Nat), (s.row h k).window = some e → e ≤ s.now →
      ∃ t : State, exec (.fireWindowEnd h k) s = .next t ∧ unchangedBut [.ports, .feed] s t ∧ announced [] s t
        ∧ otherRowsKept h k s t ∧ (t.ports.get h).arbiter = port.arbiter ∧ (t.ports.get h).keepWet = wet
        ∧ t.row h k = { s.row h k with window := none })
    ∧ (port.state = .ready → wet.armed = true → wet.deferred = false → wet.start + wet.interval * 500000 ≤ s.now →
      ∃ t : State, exec (.keepWetExpiry h) s = .next t ∧ (allowed → pulsed t)
        ∧ (¬allowed → unchangedBut [.ports, .feed] s t ∧ announced [] s t
          ∧ t.ports = s.ports.put h { port with keepWet := { wet with deferred := true } }))
    ∧ (port.state = .ready → wet.deferred = true → allowed → ∃ t : State, exec (.keepWetPulse h) s = .next t ∧ pulsed t)

/-! ### Events: the Composer -/

/-- R102, R104 to R107, R114, R115: the compose line begins when none of the conditions of R104 holds, with the ring blocks and the
patches fixed; its completion writes each plane's line, base line and patches in index order, commits it to each ring or
counts it late, frees the slots of its patches and moves the compose position. The line waits for a patch of its own being written (log 9), and
the words in error are counted at the completion, and after them the late lines, plane by plane (logs 13 and 14). R83, R106 step 1: the base of line L is the template's line L,
at first + rank × length + L, where the copy's entry names a template longer than L, and none otherwise; its stored pixels are masked by the present width alone
(log 27). -/
def Obligations.CompositionResults : Prop :=
  ∀ s : State, awake s →
    let c := s.composer
    let planes := allPlanes.filter (fun p => decide ((s.geo.planes.get p).width ≠ 0))
    (∀ (p : Plane) (e : PageEntry), c.entryOf c.copy = some e →
      (e.template = none → s.baseBlock p = none)
      ∧ ∀ i ∈ e.template, let r := s.templates.records.get i
        s.baseBlock p = if c.line < r.length then some (r.first + (planes.filter (fun q => decide (q < p))).length * r.length + c.line)
          else none)
    ∧ (∀ (e : PageEntry) (m : MarkEntry), s.job.state = .running → c.flight = none → c.entryOf c.copy = some e →
      c.markOf c.copy = some m → c.line < m.mark → (∀ p ∈ planes, (s.rings.get p).entries.length < s.memory.depth p) →
      (∀ w ∈ s.pool.writing, ¬(w.entry.copy = c.copy ∧ w.entry.line = c.line)) →
      ∃ t : State, exec .composeBegin s = .next t ∧ unchangedBut [.composer, .feed] s t ∧ announced [] s t
        ∧ t.composer = { c with flight := some ⟨planes.map (fun p => (p, s.memory.ringBase p + (s.rings.get p).writePosition)),
            s.pool.index.filter (fun x => decide (x.copy = c.copy ∧ x.line = c.line ∧ x.plane ∈ planes))⟩ })
    ∧ (∀ (f : Composition) (e : PageEntry), storesOk s → c.flight = some f → c.entryOf c.copy = some e →
      (f.targets.map (·.1)).Nodup → (f.targets.map (·.2)).Nodup → (∀ b ∈ s.composeBlocks f, b < 262144) →
      (∀ x ∈ f.targets, (∀ y ∈ f.patches, y.slot ≠ x.2) ∧ ∀ y ∈ f.targets, s.baseBlock y.1 ≠ some x.2) →
      let serial := e.base + (c.copy - e.first) * e.length + c.line
      let on := fun (p : Plane) => f.patches.filter (fun x => x.plane == p)
      let lay := fun (col v : Nat) (x : PatchEntry) => if x.first ≤ col ∧ col < x.first + x.count then
          (if x.mode = .replace then s.memory.pixel x.slot col else max v (s.memory.pixel x.slot col)) else v
      let composed := fun (p : Plane) (col : Nat) =>
        (on p).foldl (lay col) (match s.baseBlock p with | some b => s.memory.pixel b col | none => 0)
      let late := fun (p : Plane) => decide ((serial : Int) ≤ (s.rings.get p).retire)
      let last := e.length ≤ c.line + 1
      ∃ t : State, exec .compositionComplete s = .next t
        ∧ unchangedBut [.memory, .rings, .pool, .composer, .counters, .feed] s t
        ∧ announced (f.targets.flatMap (fun x => (s.baseBlock x.1).toList.flatMap (fun b => errorSigns s b (fun _ => true))
              ++ (on x.1).flatMap (fun y => errorSigns s y.slot (fun _ => true)))
            ++ (f.targets.filter (fun x => late x.1)).map (fun x => .count (.lateLines x.1))) s t
        ∧ (∀ x ∈ f.targets, ∀ col < 16384, t.memory.pixel x.2 col =
            if col < (s.geo.planes.get x.1).width then composed x.1 col else 0)
        ∧ memoryKeptBut (f.targets.map (·.2)) s t
        ∧ (∀ p : Plane, t.rings.get p = if p ∈ f.targets.map (·.1) ∧ late p = false then
            { s.rings.get p with
              entries := (s.rings.get p).entries ++ [⟨serial, (s.rings.get p).writePosition⟩],
              writePosition := ((s.rings.get p).writePosition + 1) % s.memory.depth p }
          else s.rings.get p)
        ∧ t.pool = { s.pool with index := s.pool.index.filter (fun x => decide (∀ y ∈ f.patches, y.slot ≠ x.slot)) }
        ∧ t.composer = { c with
            copy := if last then c.copy + 1 else c.copy, line := if last then 0 else c.line + 1, flight := none,
            marks := t.composer.marks }
        ∧ (¬last → t.composer.marks = c.marks)
        ∧ (last → ∀ d : Nat, t.composer.markOf d = if c.copy + 1 ≤ d ∧ d ≤ c.copy + 16 then (match c.markOf d with
            | some m => some m
            | none => (c.entryOf d).map (fun x => ⟨d, if x.patched then 0 else x.length, 0⟩)) else none))

/-- R96 to R99: the Patch Pool takes the first patch frame of a channel (log 31) when no slot is being written: a frame that a test of R97 meets first is
dropped, counted and announced with its reason; an accepted one is clipped to the width (a pixel count above 16,384 too, log 32) and takes the lowest free slot. -/
def Obligations.PatchFrameResult : Prop :=
  ∀ (ch : DataCh) (pre post : List DataFrame) (f : DataFrame) (s : State), awake s → s.pool.writing = none →
    s.feed.awaiting = pre ++ f :: post → f.isPatch = true → f.channel = ch →
    (∀ g ∈ pre, ¬(g.isPatch = true ∧ g.channel = ch)) →
    let s1 := { s with feed := { s.feed with awaiting := pre ++ post } }
    let k := s.feed.channels.get ch
    let x := patchHeaderOf f.payload
    let c := s.composer
    let dropped := fun (r : DropReason) => ∃ t : State, exec (.patchFrame ch) s = .next t ∧ unchangedBut [.counters, .feed] s t
      ∧ announced [.count .patchesDropped,
          .notice (.patchDropped (.patch x.plane (.ofNat 32 x.copy) (.ofNat 16 x.line)) r)] s1 t
    if k.state ≠ .opened ∨ (12 ≤ f.payload.length ∧ k.planes.getLsbD x.plane.toNat = false) then dropped .channel
    else if f.payload.length < 12 then dropped .length
    else if f.intact = false then dropped .payload
    else if f.payload.length ≠ 12 + (x.count + 3) / 4 then dropped .length
    else if c.nextSequence ≤ x.copy ∨ c.copy + 15 < x.copy then dropped .ahead
    else if x.copy < c.copy ∨ (x.copy = c.copy ∧ (x.line < c.line ∨ (x.line = c.line ∧ c.flight ≠ none))) then dropped .late
    else ∀ (p : Plane) (e : PageEntry), p.val = x.plane.toNat → c.entryOf x.copy = some e →
      let width := (s.geo.planes.get p).width
      if e.length ≤ x.line ∨ width = 0 ∨ 1 < x.mode.toNat ∨ 16383 < x.first ∨ width ≤ x.first ∨ e.patched = false then dropped .range
      else ∀ slot < s.memory.slots, (∀ y ∈ s.pool.index, y.slot ≠ slot) → (∀ j < slot, ∃ y ∈ s.pool.index, y.slot = j) →
        let count := min x.count (width - x.first)
        ∃ t : State, exec (.patchFrame ch) s = .next t ∧ unchangedBut [.pool, .counters, .feed] s t
          ∧ announced (if width < x.first + x.count then [.count .patchesClipped] else []) s1 t
          ∧ t.pool.index = s.pool.index
          ∧ ∃ w ∈ t.pool.writing,
            w.entry = ⟨x.copy, p, x.line, x.first, count, if x.mode = 0 then .replace else .overlay, slot, ch⟩
              ∧ ∀ col < 16384, areaPixel w.pixels col =
                if x.first ≤ col ∧ col < x.first + count then areaPixel (f.payload.drop 12) (col - x.first) else 0

/-- R77, R98, R102: a patch's slot write completes: the block holds its pixels and nothing else, its index entry stands after every entry
of a lower line and every earlier one of its line and, in an index that is in order, before every entry of a higher line, and its copy's accepted-patch count rises by 1, saturating. R87: a template
line's write completes: its block holds its pixels, the plane's fill count rises by 1, and a template whose configured planes
all hold their length of lines becomes COMPLETE with its notice. -/
def Obligations.BlockWriteResults : Prop :=
  (∀ (w : PatchWrite) (s : State), awake s → storesOk s → s.pool.writing = some w → w.entry.slot < 262144 →
     ∃ t : State, exec .patchWriteComplete s = .next t
       ∧ unchangedBut [.memory, .pool, .composer, .feed] s t ∧ announced [] s t
       ∧ (∀ col < 16384, t.memory.pixel w.entry.slot col = areaPixel w.pixels col) ∧ memoryKeptBut [w.entry.slot] s t
       ∧ (∃ n : Nat, n ≤ s.pool.index.length
         ∧ t.pool = ⟨s.pool.index.take n ++ w.entry :: s.pool.index.drop n, none⟩
         ∧ (∀ x ∈ s.pool.index.take n, x.copy = w.entry.copy → x.plane = w.entry.plane → x.line ≤ w.entry.line)
         ∧ (indexOk s → ∀ x ∈ s.pool.index.drop n, x.copy = w.entry.copy → x.plane = w.entry.plane → w.entry.line < x.line))
       ∧ t.composer = { s.composer with marks := t.composer.marks }
       ∧ ∀ copy : Nat, t.composer.markOf copy = (s.composer.markOf copy).map (fun m =>
           if copy = w.entry.copy then { m with accepted := if m.accepted = 0xFFFFFFFF then 0xFFFFFFFF else m.accepted + 1 } else m))
  ∧ (∀ (w : TemplateWrite) (s : State), awake s → storesOk s → s.templates.writing = some w → w.block < 262144 →
      let r := s.templates.records.get w.template
      let filled := fun (p : Plane) => if p = w.plane then r.fill.get p + 1 else r.fill.get p
      let complete := ∀ p : Plane, (s.geo.planes.get p).width ≠ 0 → filled p = r.length
      ∃ t : State, exec .templateLineWriteComplete s = .next t ∧ unchangedBut [.memory, .templates, .feed] s t
        ∧ (∀ col < 16384, t.memory.pixel w.block col = areaPixel w.pixels col) ∧ memoryKeptBut [w.block] s t
        ∧ t.templates.free = s.templates.free ∧ t.templates.writing = none
        ∧ (∀ j : TemplateIx, j ≠ w.template → t.templates.records.get j = s.templates.records.get j)
        ∧ (t.templates.records.get w.template).length = r.length ∧ (t.templates.records.get w.template).first = r.first
        ∧ (t.templates.records.get w.template).blocks = r.blocks
        ∧ (∀ p : Plane, (t.templates.records.get w.template).fill.get p = filled p)
        ∧ (t.templates.records.get w.template).state = (if complete then .complete else r.state)
        ∧ announced (if complete then [.notice (.templateComplete w.template)] else []) s t)

/-- R83, R86, R88: the Template Store takes the first template line of a channel (log 31) when no line is being written: the first test of R86 that applies
drops it (a line of a plane that already holds its length of lines by test 4), counted and announced with its reason; an accepted line's write begins at first + rank × length + line. -/
def Obligations.TemplateLineFrameResult : Prop :=
  ∀ (ch : DataCh) (pre post : List DataFrame) (f : DataFrame) (s : State), awake s → s.templates.writing = none →
    s.feed.awaiting = pre ++ f :: post → f.isPatch = false → f.channel = ch →
    (∀ g ∈ pre, ¬(g.isPatch = false ∧ g.channel = ch)) →
    let s1 := { s with feed := { s.feed with awaiting := pre ++ post } }
    let k := s.feed.channels.get ch
    let x := lineHeaderOf f.payload
    let dropped := fun (r : DropReason) => ∃ t : State, exec (.templateLineFrame ch) s = .next t
      ∧ unchangedBut [.counters, .feed] s t ∧ announced [.count .templateLinesDropped,
          .notice (.patchDropped (.templateLine x.plane x.template (.ofNat 16 x.line)) r)] s1 t
    if k.state ≠ .opened ∨ (6 ≤ f.payload.length ∧ k.planes.getLsbD x.plane.toNat = false) then dropped .channel
    else if f.payload.length < 6 then dropped .length
    else if f.intact = false then dropped .payload
    else if 15 < x.template.toNat then dropped .state
    else ∀ (i : TemplateIx) (p : Plane), i.val = x.template.toNat → p.val = x.plane.toNat →
      let r := s.templates.records.get i
      let width := (s.geo.planes.get p).width
      let rank := (allPlanes.filter (fun q => decide (q < p ∧ (s.geo.planes.get q).width ≠ 0))).length
      if r.state ≠ .filling ∨ width = 0 then dropped .state
      else if x.line ≠ r.fill.get p ∨ r.length ≤ x.line then dropped .order
      else if x.count ≠ width ∨ f.payload.length ≠ 6 + (width + 3) / 4 then dropped .length
      else ∃ t : State, exec (.templateLineFrame ch) s = .next t ∧ unchangedBut [.templates, .feed] s t
        ∧ announced [] s1 t ∧ t.templates.records = s.templates.records ∧ t.templates.free = s.templates.free
        ∧ ∃ w ∈ t.templates.writing, w = ⟨ch, i, p, r.first + rank * r.length + x.line, w.pixels⟩
          ∧ ∀ col : Nat, areaPixel w.pixels col = if col < width then areaPixel (f.payload.drop 6) col else 0

/-! ### Events: the feed link -/

/-- R177, R179, section 11.2: pixel 4k + j of a pixel area stands in bits 2j + 1 and 2j of byte k, and a packed line reads back level by
level; R77, R80, R81: a block of the frame memory is 4,096 bytes and 512 words of 8 bytes, and a read delivers the stored level of a pixel, or
level 0 where its word is uncorrectable; the fixed parts of a patch and of a template line hold the fields of section 11.2, each as received
where the payload holds it whole, in a payload shorter than the fixed part too (R86, R97), and 0 where the payload does not
hold it whole, and a pixel count of 0 stands for 16,384. -/
def Obligations.DataFrameLayout : Prop :=
  (∀ (area : List Byte) (k : Nat) (j : Fin 4), areaPixel area (4 * k + j.val)
      = (area.getD k 0).toNat / [1, 4, 16, 64].getD j.val 0 % 4)
  ∧ (∀ (n : Nat) (f : Nat → Nat), (packPixels n f).length = (n + 3) / 4
      ∧ ∀ c : Nat, areaPixel (packPixels n f) c = if c < n then f c % 4 else 0)
  ∧ (∀ (m : FrameMemory) (block col : Nat), m.pixel block col =
      if m.errorAt (512 * block + col / 32) = some .double then 0
      else (m.byte (4096 * block + col / 4)).toNat / [1, 4, 16, 64].getD (col % 4) 0 % 4)
  ∧ ∀ p : List Byte,
    (12 ≤ p.length → patchHeaderOf p = ⟨field p 0 4, byteAt p 4, byteAt p 5, field p 6 2, field p 8 2,
      if field p 10 2 = 0 then 16384 else field p 10 2⟩)
    ∧ (6 ≤ p.length → lineHeaderOf p = ⟨byteAt p 0, byteAt p 1, field p 2 2, if field p 4 2 = 0 then 16384 else field p 4 2⟩)
    ∧ (4 ≤ p.length → (patchHeaderOf p).copy = field p 0 4) ∧ (5 ≤ p.length → (patchHeaderOf p).plane = byteAt p 4)
    ∧ (8 ≤ p.length → (patchHeaderOf p).line = field p 6 2) ∧ (1 ≤ p.length → (lineHeaderOf p).template = byteAt p 0)
    ∧ (2 ≤ p.length → (lineHeaderOf p).plane = byteAt p 1) ∧ (4 ≤ p.length → (lineHeaderOf p).line = field p 2 2)
    ∧ (p.length < 4 → (patchHeaderOf p).copy = 0) ∧ (p.length < 5 → (patchHeaderOf p).plane = 0)
    ∧ (p.length < 8 → (patchHeaderOf p).line = 0) ∧ (p.length < 2 → (lineHeaderOf p).plane = 0)
    ∧ (p.length < 1 → (lineHeaderOf p).template = 0) ∧ (p.length < 4 → (lineHeaderOf p).line = 0)

/-- R162: the header tests in order: a header error or a protocol error counts and takes the link DOWN; a header that passes makes its
frame the one being received. A link taken DOWN begins its next training attempt at once, so the state is TRAINING (log 12). R163,
R164: a frame whose payload has arrived counts on its channel and joins the frames of its
owner with the outcome of its payload check, which an empty payload does not have; so too where a Close Channel has closed its channel
since its header passed (the model's choice, log 22). R89, R155: a data frame in flight at a Restart counts and is not handed on. -/
def Obligations.FrameArrivalResults : Prop :=
  (∀ (sync channel kind tag : Byte) (length : BitVec 16) (check : Byte) (s : State), awake s → s.feed.link = .up →
     s.feed.incoming = none →
     let known := (channel = 0 ∧ kind = 1) ∨ (1 ≤ channel.toNat ∧ channel.toNat ≤ 3 ∧ (kind = 2 ∨ kind = 3))
     let shut := ∃ c : DataCh, c.val + 1 = channel.toNat
       ∧ ((s.feed.channels.get c).state = .closed ∨ (s.feed.channels.get c).state = .waiting ∨ (s.feed.channels.get c).state = .pending)
     let broke := ∃ i : Fin 4, i.val = channel.toNat ∧ (s.feed.credit.get i).received = (s.feed.credit.get i).limit
     ∃ t : State, exec (.frameHeaderReceived sync channel kind tag length check) s = .next t ∧
       (if sync ≠ 0x5C ∨ check ≠ crc8 ([sync, channel, kind, tag] ++ leBytes 2 length.toNat) then
         linkDropped [.count .headerErrors] s t
       else if ¬known ∨ 4112 < length.toNat ∨ shut ∨ broke then linkDropped [.count .protocolErrors] s t
       else unchangedBut [.feed] s t
         ∧ ∀ c : DataCh,
           let what : FrameKind := if kind = 1 then .request else if kind = 2 then .patch c else .templateLine c
           (kind ≠ 1 → c.val + 1 = channel.toNat) →
             announced [] { s with feed := { s.feed with incoming := some ⟨what, tag, length.toNat, false⟩ } } t))
  ∧ (∀ (payload : List Byte) (check : BitVec 32) (i : Incoming) (s : State), awake s → s.feed.link = .up →
      s.feed.incoming = some i → payload.length = i.length →
      let intact := decide (payload = [] ∨ check = crc32 payload)
      let ch : Fin 4 := match i.kind with | .request => 0 | .patch c => linkIx c | .templateLine c => linkIx c
      let s1 := { s with feed := { s.feed with
        incoming := none,
        credit := s.feed.credit.put ch { s.feed.credit.get ch with received := (s.feed.credit.get ch).received + 1 },
        requests := s.feed.requests ++ (match i.kind, i.discarded with | .request, false => [⟨i.tag, payload, intact⟩] | _, _ => []),
        awaiting := s.feed.awaiting ++ (match i.kind, i.discarded with
          | .patch c, false => [⟨true, c, payload, intact⟩]
          | .templateLine c, false => [⟨false, c, payload, intact⟩]
          | _, _ => []) } }
      ∃ t : State, exec (.frameReceived payload check) s = .next t ∧ unchangedBut [.feed] s t ∧ announced [] s1 t)

/-- R171: the request at the head of the queue is taken when the reply queue has room: the first of tests 1 to 3 that applies
answers it and changes nothing else; otherwise the request is what its payload carries. The model takes it as one event with its
owner's handling (log 5). -/
def Obligations.RequestTakenResult : Prop :=
  ∀ (s : State) (q : QueuedRequest) (rest : List QueuedRequest), ready s → s.feed.requests = q :: rest →
    let s1 := { s with feed := { s.feed with requests := rest } }
    let code := q.payload.getD 0 0
    let size := q.payload.length
    let sizes := [0, 1, 2, 8, 23, 13, 0, 7, 2, 11, 7, 6, 4, 15, 4, 2, 12, 7, 5, 2, 2, 1, 1, 1, 1]
    let fits := if code = 6 then 7 ≤ size ∧ size ≤ 775 else size = sizes.getD code.toNat 0
    let answered := fun (c : Byte) (r : Result) => ∃ t : State, exec .requestTaken s = .next t ∧ refused s1 t q.tag c r
    if q.intact = false then answered code .corrupt
    else if q.payload = [] then answered 0 .length
    else if code = 0 ∨ 24 < code.toNat then answered code .unknown
    else if ¬fits then answered code .length
    else ∃ r : Request, decodeRequest q.payload = .request r ∧ r.code = code ∧
      ((s.templates.writing = none ∨ (code ≠ 0x0E ∧ code ≠ 0x0F)) →
        ∃ t : State, exec .requestTaken s = .next t ∧ exec (commandOf q.tag r) s1 = .next t ∧ t.feed.requests = rest
          ∧ ∃ x ∈ t.feed.replies.getLast?, t.feed.replies = s.feed.replies ++ [x] ∧ x.2.tag = q.tag ∧ x.2.code = code)

/-- R165, R174, R178: a CREDIT frame sent whole sets its channel's last announced limit and opens a PENDING channel; a reply or a notice sent
whole leaves its queue; the frame's bytes are those of section 11.1. What is sent next is the due CREDIT frame of the lowest
channel, else the earlier placed of the first reply and the first notice, else nothing. -/
def Obligations.TransmitterResults : Prop :=
  (∀ s : State, awake s → s.feed.link = .up →
     (∀ (c : Fin 4) (limit : BitVec 16), s.feed.sending = some (.credit c limit) →
       let opens := fun (d : DataCh) => d.val + 1 = c.val ∧ (s.feed.channels.get d).state = .pending
       let s1 := { s with feed := { s.feed with
         sent := frameBytes (BitVec.ofNat 8 c.val) 0x83 0 (leBytes 2 limit.toNat), sending := none,
         credit := s.feed.credit.put c { s.feed.credit.get c with announced := limit } } }
       ∃ t : State, exec .creditFrameSent s = .next t ∧ unchangedBut [.feed] s t ∧ linkKept s1 t ∧ repliesKept s t
         ∧ t.feed.order = s.feed.order ∧ t.feed.requests = s.feed.requests ∧ t.feed.awaiting = s.feed.awaiting
         ∧ (∀ d : DataCh, t.feed.channels.get d =
             if opens d then { s.feed.channels.get d with state := .opened } else s.feed.channels.get d)
         ∧ told ((allDataCh.filter (fun d => decide (opens d))).map (fun d => .notice (.channelState d .opened))) s t)
     ∧ (∀ (n : Nat) (r : Reply) (rest : List (Nat × Reply)), s.feed.sending = some .reply → s.feed.replies = (n, r) :: rest →
       let s1 := { s with feed := { s.feed with
         sent := frameBytes 0 0x81 r.tag ([r.code, r.result.code] ++ r.body), sending := none, replies := rest } }
       ∃ t : State, exec .frameSent s = .next t ∧ unchangedBut [.feed] s t ∧ announced [] s1 t)
     ∧ (∀ (n : Nat) (x : Notice) (rest : List (Nat × Notice)), s.feed.sending = some .notice → s.feed.notices = (n, x) :: rest →
       let s1 := { s with feed := { s.feed with sent := frameBytes 0 0x82 0 x.payload, sending := none, notices := rest } }
       ∃ t : State, exec .frameSent s = .next t ∧ unchangedBut [.feed] s t ∧ announced [] s1 t)
     ∧ ∀ (channel kind tag : Byte) (payload : List Byte), payload.length < 65536 →
       let b := frameBytes channel kind tag payload
       b.take 4 = [0x5C, channel, kind, tag] ∧ field b 4 2 = payload.length ∧ byteAt b 6 = crc8 (b.take 6)
         ∧ (b.drop 7).take payload.length = payload
         ∧ (payload = [] → b.length = 7)
         ∧ (payload ≠ [] → b.length = 11 + payload.length ∧ field b (7 + payload.length) 4 = (crc32 payload).toNat))
  ∧ (∀ f : Feed,
      let due := fun (c : Fin 4) =>
        if c = 0 then (f.credit.get c).limit ≠ (f.credit.get c).announced
        else ∃ d : DataCh, d.val + 1 = c.val ∧ ((f.channels.get d).state = .pending
          ∨ ((f.channels.get d).state = .opened ∧ (f.credit.get c).limit ≠ (f.credit.get c).announced))
      (∀ c : Fin 4, due c → (∀ b < c, ¬due b) → f.nextSending = some (.credit c (f.credit.get c).limit))
        ∧ ((∀ c : Fin 4, ¬due c) →
          (f.replies = [] → f.notices = [] → f.nextSending = none)
          ∧ (f.replies ≠ [] → f.notices = [] → f.nextSending = some .reply)
          ∧ (f.replies = [] → f.notices ≠ [] → f.nextSending = some .notice)
          ∧ ∀ x ∈ f.replies.head?, ∀ y ∈ f.notices.head?,
            f.nextSending = if x.1 < y.1 then some .reply else some .notice))

/-- R160, R161, R164: a training that completes takes the link UP, where channel 0 and the PENDING channels earn credit; a training attempt
of 2 ms and a loss of word lock take it DOWN, where the next attempt begins at once (log 12). -/
def Obligations.LinkStateResults : Prop :=
  ∀ s : State, awake s →
    (s.feed.link ≠ .up → ∃ t : State, exec .linkUp s = .next t ∧ unchangedBut [.feed] s t
      ∧ announced [] { s with feed := { s.feed with link := .up, incoming := none, sending := none } } t)
    ∧ (s.feed.link = .training → s.feed.trainingStart + 200000 ≤ s.now →
      ∃ t : State, exec .trainingTimeout s = .next t ∧ linkDropped [] s t)
    ∧ (s.feed.link ≠ .down → ∃ t : State, exec .wordLockLoss s = .next t ∧ linkDropped [] s t)

/-- R172, R175, sections 11.4, 11.5 and 11.7: a notice of a disabled kind has no effect, an enabled one joins the queue or sets the
notices-lost flag when it holds 32; an increment saturates the counter, sets the announced flag, and places FIRST EVENT while it
was clear. The payload of every notice and reply, with the codes of results, states, causes, drop reasons and counters. -/
def Obligations.NoticeAndCounterRules : Prop :=
  (∀ (n : Notice) (s : State),
    let t := tell [.notice n] s
    unchangedBut [.feed] s t
      ∧ (s.feed.mask.getLsbD n.kind = false → t = s)
      ∧ (s.feed.mask.getLsbD n.kind = true → 32 ≤ s.feed.notices.length →
          t.feed = { s.feed with noticesLost := true })
      ∧ (s.feed.mask.getLsbD n.kind = true → s.feed.notices.length < 32 →
          t.feed = { s.feed with notices := s.feed.notices ++ [(s.feed.placed, n)], placed := s.feed.placed + 1 }))
  ∧ (∀ (c : CounterId) (s : State),
    let t := tell [.count c] s
    unchangedBut [.counters, .feed] s t
      ∧ t.countOf c = (if s.countOf c = 0xFFFFFFFF then 0xFFFFFFFF else s.countOf c + 1) ∧ t.isAnnounced c = true
      ∧ (∀ d : CounterId, d ≠ c → t.countOf d = s.countOf d ∧ t.isAnnounced d = s.isAnnounced d)
      ∧ t.feed = (if s.isAnnounced c = true then s else tell [.notice (.firstEvent c)] s).feed)
  ∧ (∀ x ∈ [(JobState.idle, (0 : Byte)), (.running, 1), (.stopping, 2), (.halted, 3)], x.1.code = x.2.toNat
      ∧ (∀ y ∈ [(JobCause.start, (0 : Byte)), (.stop, 1), (.reverse, 2), (.stopComplete, 4), (.abort, 5), (.restart, 6)],
        (Notice.jobState x.1 y.1).payload = [0, x.2, y.2, 0])
      ∧ ∀ h : Port, (Notice.jobState x.1 (.headFault h)).payload = [0, x.2, 3, BitVec.ofNat 8 h.val])
  ∧ (∀ x ∈ [(PortState.unassigned, (0 : Byte)), (.ready, 1), (.offline, 2)], x.1.code = x.2.toNat
      ∧ ∀ h : Port, (Notice.headState h x.1).payload = [1, BitVec.ofNat 8 h.val, x.2])
  ∧ (∀ x ∈ [(ChannelState.closed, (0 : Byte)), (.waiting, 1), (.pending, 2), (.opened, 3), (.draining, 4)], x.1.code = x.2.toNat
      ∧ ∀ c : DataCh, (Notice.channelState c x.1).payload = [2, BitVec.ofNat 8 (c.val + 1), x.2])
  ∧ (∀ (i : TemplateIx) (p : Plane) (copy : Nat), (Notice.templateComplete i).payload = [3, BitVec.ofNat 8 i.val]
      ∧ (Notice.mapSwitched p).payload = [4, BitVec.ofNat 8 p.val] ∧ (Notice.copyPrinted copy).payload = 6 :: leBytes 4 copy)
  ∧ (∀ x ∈ [(DropReason.channel, (1 : Byte)), (.payload, 2), (.state, 3), (.order, 4), (.length, 5), (.ahead, 6), (.late, 7),
        (.range, 8)], ∀ (plane template : Byte) (copy : BitVec 32) (line : BitVec 16),
      (Notice.patchDropped (.patch plane copy line) x.1).payload
          = [5, 0, x.2, plane, 0] ++ leBytes 4 copy.toNat ++ leBytes 2 line.toNat
        ∧ (Notice.patchDropped (.templateLine plane template line) x.1).payload
          = [5, 1, x.2, plane, template, 0, 0, 0, 0] ++ leBytes 2 line.toNat)
  ∧ (∀ x ∈ [(CounterId.encoderErrors, (0 : Byte)), (.reTravelBoundaries, 1), (.reTravelEdges, 2), (.lockoutEdges, 3),
        (.missedProducts, 4), (.earlyTriggers, 5), (.copiesPrinted, 6), (.correctedWords, 7), (.uncorrectableWords, 8),
        (.templateLinesDropped, 9), (.patchesDropped, 10), (.patchesClipped, 11), (.laterHalts, 12), (.headerErrors, 13),
        (.protocolErrors, 14)], (Notice.firstEvent x.1).payload = [7, x.2, 0])
  ∧ (∀ (p : Plane) (h : Port), (Notice.firstEvent (.underruns p)).payload = [7, 16, BitVec.ofNat 8 p.val]
      ∧ (Notice.firstEvent (.lateLines p)).payload = [7, 17, BitVec.ofNat 8 p.val]
      ∧ (Notice.firstEvent (.dropFires h)).payload = [7, 20, BitVec.ofNat 8 h.val]
      ∧ (Notice.firstEvent (.forcedFires h)).payload = [7, 21, BitVec.ofNat 8 h.val]
      ∧ (Notice.firstEvent (.lateFires h)).payload = [7, 22, BitVec.ofNat 8 h.val]
      ∧ (Notice.firstEvent (.skippedLines h)).payload = [7, 23, BitVec.ofNat 8 h.val]
      ∧ (Notice.firstEvent (.keepWetPulses h)).payload = [7, 24, BitVec.ofNat 8 h.val])
  ∧ (∀ x ∈ [(Result.done, (0x00 : Byte)), (.unknown, 0x01), (.length, 0x02), (.corrupt, 0x03), (.range, 0x04), (.state, 0x05),
        (.held, 0x06), (.full, 0x07), (.space, 0x08), (.inUse, 0x09), (.pending, 0x0A), (.check, 0x0B), (.ahead, 0x0C)],
      ∀ (tag code : Byte) (body : List Byte), (Reply.payload ⟨tag, code, x.1, body⟩) = [code, x.2] ++ body)
  ∧ ∀ x ∈ [(TemplateState.free, (0 : Byte)), (.filling, 1), (.complete, 2)], x.1.code = x.2

/-! ### Levels -/

/-- R27: on any one serial of a plane no column is given a nonzero level by more than one nozzle. R30: every level is 0, 1, 2 or 3, and the
level of a WEAK nozzle does not exceed the weak cap of its plane. -/
def Obligations.LevelsOfALine : Prop :=
  (∀ (s : State) (p : Plane) (serial : Nat) (line line' : Nat → Nat) (h g : Port) (j k : RowIx) (m n : Nat),
     (s.geo.heads.get h).column j m = (s.geo.heads.get g).column k n → j.val < (s.geo.heads.get h).rows →
     k.val < (s.geo.heads.get g).rows →
     s.nozzleLevel p serial line h j m ≠ 0 → s.nozzleLevel p serial line' g k n ≠ 0 → h = g ∧ j = k ∧ m = n)
  ∧ (∀ (s : State) (p : Plane) (serial : Nat) (line : Nat → Nat) (h : Port) (k : RowIx) (n : Nat),
      s.nozzleLevel p serial line h k n ≤ 3
        ∧ (s.geo.statusFor p serial h k.val n = .weak → s.nozzleLevel p serial line h k n ≤ (s.geo.planes.get p).weakCap))

/-- R24 to R26: the owner of a column: in one span that head unless its nozzle is OUT; in the overlap of a seam entry the head the pattern
chooses unless its nozzle is OUT, then the other unless its nozzle is OUT too; otherwise the column is dead. R10, R13, R32: a
nozzle is OUT for a serial by its status, staged from the switch serial on while a switch is pending; in a job from its head's
offline-from serial on; in IDLE while its port is OFFLINE. A switch that completes changes no decision at or above E. -/
def Obligations.ColumnOwner : Prop :=
  (∀ (s : State) (p : Plane) (serial c : Nat), c < (s.geo.planes.get p).width →
     let out := fun (h : Port) => s.outFor p serial h ((c - (s.geo.heads.get h).first) % (s.geo.heads.get h).rows)
       ((c - (s.geo.heads.get h).first) / (s.geo.heads.get h).rows)
     (s.dead p serial c = true ↔ s.owner p serial c = none)
     ∧ (∀ a : Port, s.geo.covering p c = [a] → s.owner p serial c = if out a = true then none else some a)
     ∧ ∀ (a b l : Port) (e : SeamIx), s.geo.covering p c = [a, b] → (s.geo.seams.get e).left = some l →
       ((l = a ∧ (s.geo.seams.get e).right = b) ∨ (l = b ∧ (s.geo.seams.get e).right = a)) →
       (∀ d : SeamIx, (s.geo.seams.get d).names a b = true → d = e) →
       let r := (s.geo.seams.get e).right
       let index := (c - (s.geo.heads.get r).first + serial * (s.geo.seams.get e).shift) % 64
       let x := if (s.geo.seams.get e).pattern.getLsbD index then r else l
       let y := if (s.geo.seams.get e).pattern.getLsbD index then l else r
       s.owner p serial c = if out x = false then some x else if out y = false then some y else none)
  ∧ ((∀ (s : State) (p : Plane) (serial : Nat) (h : Port) (k n : Nat),
      let w := s.geo.switches.get p
      let status := if w.pending = true ∧ w.serial ≤ serial then nozzleStatus s.geo.staged h k n else nozzleStatus s.geo.active h k n
      s.geo.statusFor p serial h k n = status
      ∧ (s.outFor p serial h k n = true ↔ (status = .out
        ∨ (s.job.state ≠ .idle ∧ ∃ f ∈ s.geo.offlineFrom.get h, f ≤ serial)
        ∨ (s.job.state = .idle ∧ (s.ports.get h).state = .offline))))
    ∧ ∀ (s t : State) (p : Plane), awake s → storesOk s → (s.geo.switches.get p).pending = true →
      ((s.geo.switches.get p).serial : Int) - 1 ≤ (s.rings.get p).retire → exec (.mapSwitchComplete p) s = .next t →
      ∀ (serial : Nat), (s.geo.switches.get p).serial ≤ serial → ∀ (h : Port) (k : RowIx) (n : Fin 768), s.planeOf h = some p →
        t.outFor p serial h k.val n.val = s.outFor p serial h k.val n.val)

/-! ### Encodings and invariants -/

/-- Section 11.3, R171, R180: decoding the payload of a request whose operands the link can carry gives the request back, with its code
in the first byte; and every payload that decodes to a request is that request's own. -/
def Obligations.RequestRoundTrip : Prop :=
  (∀ r : Request, r.wellFormed = true → decodeRequest (encodeRequest r) = .request r ∧ byteAt (encodeRequest r) 0 = r.code)
  ∧ ∀ (p : List Byte) (r : Request), decodeRequest p = .request r → encodeRequest r = p ∧ r.wellFormed = true

/-- R36, R40, R43, R44, R46, R50: every step keeps the Motion Unit's invariant: ratios in range, the accumulator below M, 0 ≤ H and
P ≤ H, the last pair that of the accepted levels, and everything a job moves at rest in IDLE. -/
def Obligations.StepKeepsMotion : Prop :=
  ∀ s t : State, motionOk s → step s = .next t → motionOk t

/-- R61, R92, R95, R102, R171, R172: every step keeps the bounds of the queues, the canonical form of each store, the ranges of the
configuration records, and that each queued page names a COMPLETE template. R61, R62, R92, R101, R105: it keeps the order and the
spacing of the placements and their consecutive copies, the pages consecutive in copy and serial, the compose position a line of
a queued copy, and the mark table that of the copy window. R83, R84: it keeps the fill counts, and each block of the template region
in exactly one free extent or template. R96, R98: it keeps the patch index in order, with no slot held twice. -/
def Obligations.StepKeepsBounds : Prop :=
  ∀ s t : State, step s = .next t →
    (queuesOk s → queuesOk t) ∧ (storesOk s → storesOk t) ∧ (recordsOk s → recordsOk t) ∧ (pagesOk s → pagesOk t)
      ∧ (placesOk s → composerOk s → placesOk t ∧ composerOk t) ∧ (spaceOk s → fillsOk s → spaceOk t ∧ fillsOk t)
      ∧ (indexOk s → indexOk t)

/-- R118, R120, R130, R132: every step keeps the rows and the arbiter queues in order, each held serial above its plane's retire point,
and that point at or below the release serials and equal to the least of them; within a job the frontier and the retire point of every plane never fall, nor does
H. R113, R114: it keeps each ring at most at its depth, its serials strictly increasing and below the compose position, and room in
each ring, at its write position, for a composition in flight. -/
def Obligations.StepKeepsRowsAndRings : Prop :=
  ∀ s t : State, step s = .next t →
    (rowsOk s → ringsOk s → rowsOk t ∧ ringsOk t ∧ (s.job.state ≠ .idle → t.job.state ≠ .idle →
      s.motion.h ≤ t.motion.h ∧ ∀ p : Plane, (s.rings.get p).frontier ≤ (t.rings.get p).frontier
        ∧ (s.rings.get p).retire ≤ (t.rings.get p).retire))
    ∧ (retireOk s → retireOk t)
    ∧ (idleOk s → placesOk s → composerOk s → ringsFilled s → ringsFilled t)

/-- R141, R147, R153: every step keeps IDLE free of placements, compositions, ring entries, pending switches and pending lines. R15: no step
that begins and ends in a job changes the configuration: plane records, head records, seam table, memory plan, motion settings
other than the ratio, and product-detect settings. R21: in a job every step leaves the owner of every column the same for each serial
at or below the frontier that is not yet retired; R13: only an OFFLINE port has an offline-from serial. -/
def Obligations.StepKeepsJobRules : Prop :=
  (∀ s t : State, idleOk s → step s = .next t → idleOk t)
  ∧ (∀ s t : State, s.job.state ≠ .idle → t.job.state ≠ .idle → step s = .next t → configurationKept s t)
  ∧ (∀ s t : State, offlineOk s → step s = .next t → offlineOk t)
  ∧ ∀ s t : State, storesOk s → recordsOk s → offlineOk s → s.job.state ≠ .idle → t.job.state ≠ .idle → step s = .next t →
    ownersKept s t

/-- R160, R161, R164, R166, R168: every step keeps the link, its credits, the reservation order, the reserved quotas within the pool slots
and each channel's held frames and slots within its quota. A frame whose write is in flight counts as held (log 8), and a channel
closed while a frame of it arrives holds that one frame (log 22). -/
def Obligations.StepKeepsLink : Prop :=
  ∀ s t : State, step s = .next t →
    (linkOk s → linkOk t) ∧ (creditOk s → creditOk t) ∧ (orderOk s → orderOk t) ∧ (reservationsOk s → reservationsOk t)
      ∧ (linkOk s → orderOk s → quotasOk s → quotasOk t)
end

