-- ==== Sys2Proof/Laws/State.lean ====
section
/-! SUPPORT. Laws/State.lean: one lemma per field and update of `State`, so that no proof unfolds a record update. -/

namespace Sys2Proof.Machine

/-! ### `setJob` -/

@[simp] theorem State.setJob_pending (s : State) (x : Job) : (s.setJob x).pending = s.pending := rfl
@[simp] theorem State.setJob_now (s : State) (x : Job) : (s.setJob x).now = s.now := rfl
@[simp] theorem State.setJob_pins (s : State) (x : Job) : (s.setJob x).pins = s.pins := rfl
@[simp] theorem State.setJob_inputs (s : State) (x : Job) : (s.setJob x).inputs = s.inputs := rfl
@[simp] theorem State.setJob_sampled (s : State) (x : Job) : (s.setJob x).sampled = s.sampled := rfl
@[simp] theorem State.setJob_resetHeld (s : State) (x : Job) : (s.setJob x).resetHeld = s.resetHeld := rfl
@[simp] theorem State.setJob_job (s : State) (x : Job) : (s.setJob x).job = x := rfl
@[simp] theorem State.setJob_geo (s : State) (x : Job) : (s.setJob x).geo = s.geo := rfl
@[simp] theorem State.setJob_motion (s : State) (x : Job) : (s.setJob x).motion = s.motion := rfl
@[simp] theorem State.setJob_place (s : State) (x : Job) : (s.setJob x).place = s.place := rfl
@[simp] theorem State.setJob_memory (s : State) (x : Job) : (s.setJob x).memory = s.memory := rfl
@[simp] theorem State.setJob_templates (s : State) (x : Job) : (s.setJob x).templates = s.templates := rfl
@[simp] theorem State.setJob_pool (s : State) (x : Job) : (s.setJob x).pool = s.pool := rfl
@[simp] theorem State.setJob_composer (s : State) (x : Job) : (s.setJob x).composer = s.composer := rfl
@[simp] theorem State.setJob_rings (s : State) (x : Job) : (s.setJob x).rings = s.rings := rfl
@[simp] theorem State.setJob_ports (s : State) (x : Job) : (s.setJob x).ports = s.ports := rfl
@[simp] theorem State.setJob_counters (s : State) (x : Job) : (s.setJob x).counters = s.counters := rfl
@[simp] theorem State.setJob_feed (s : State) (x : Job) : (s.setJob x).feed = s.feed := rfl

/-! ### `setGeo` -/

@[simp] theorem State.setGeo_pending (s : State) (x : Geometry) : (s.setGeo x).pending = s.pending := rfl
@[simp] theorem State.setGeo_now (s : State) (x : Geometry) : (s.setGeo x).now = s.now := rfl
@[simp] theorem State.setGeo_pins (s : State) (x : Geometry) : (s.setGeo x).pins = s.pins := rfl
@[simp] theorem State.setGeo_inputs (s : State) (x : Geometry) : (s.setGeo x).inputs = s.inputs := rfl
@[simp] theorem State.setGeo_sampled (s : State) (x : Geometry) : (s.setGeo x).sampled = s.sampled := rfl
@[simp] theorem State.setGeo_resetHeld (s : State) (x : Geometry) : (s.setGeo x).resetHeld = s.resetHeld := rfl
@[simp] theorem State.setGeo_job (s : State) (x : Geometry) : (s.setGeo x).job = s.job := rfl
@[simp] theorem State.setGeo_geo (s : State) (x : Geometry) : (s.setGeo x).geo = x := rfl
@[simp] theorem State.setGeo_motion (s : State) (x : Geometry) : (s.setGeo x).motion = s.motion := rfl
@[simp] theorem State.setGeo_place (s : State) (x : Geometry) : (s.setGeo x).place = s.place := rfl
@[simp] theorem State.setGeo_memory (s : State) (x : Geometry) : (s.setGeo x).memory = s.memory := rfl
@[simp] theorem State.setGeo_templates (s : State) (x : Geometry) : (s.setGeo x).templates = s.templates := rfl
@[simp] theorem State.setGeo_pool (s : State) (x : Geometry) : (s.setGeo x).pool = s.pool := rfl
@[simp] theorem State.setGeo_composer (s : State) (x : Geometry) : (s.setGeo x).composer = s.composer := rfl
@[simp] theorem State.setGeo_rings (s : State) (x : Geometry) : (s.setGeo x).rings = s.rings := rfl
@[simp] theorem State.setGeo_ports (s : State) (x : Geometry) : (s.setGeo x).ports = s.ports := rfl
@[simp] theorem State.setGeo_counters (s : State) (x : Geometry) : (s.setGeo x).counters = s.counters := rfl
@[simp] theorem State.setGeo_feed (s : State) (x : Geometry) : (s.setGeo x).feed = s.feed := rfl

/-! ### `setMotion` -/

@[simp] theorem State.setMotion_pending (s : State) (x : Motion) : (s.setMotion x).pending = s.pending := rfl
@[simp] theorem State.setMotion_now (s : State) (x : Motion) : (s.setMotion x).now = s.now := rfl
@[simp] theorem State.setMotion_pins (s : State) (x : Motion) : (s.setMotion x).pins = s.pins := rfl
@[simp] theorem State.setMotion_inputs (s : State) (x : Motion) : (s.setMotion x).inputs = s.inputs := rfl
@[simp] theorem State.setMotion_sampled (s : State) (x : Motion) : (s.setMotion x).sampled = s.sampled := rfl
@[simp] theorem State.setMotion_resetHeld (s : State) (x : Motion) : (s.setMotion x).resetHeld = s.resetHeld := rfl
@[simp] theorem State.setMotion_job (s : State) (x : Motion) : (s.setMotion x).job = s.job := rfl
@[simp] theorem State.setMotion_geo (s : State) (x : Motion) : (s.setMotion x).geo = s.geo := rfl
@[simp] theorem State.setMotion_motion (s : State) (x : Motion) : (s.setMotion x).motion = x := rfl
@[simp] theorem State.setMotion_place (s : State) (x : Motion) : (s.setMotion x).place = s.place := rfl
@[simp] theorem State.setMotion_memory (s : State) (x : Motion) : (s.setMotion x).memory = s.memory := rfl
@[simp] theorem State.setMotion_templates (s : State) (x : Motion) : (s.setMotion x).templates = s.templates := rfl
@[simp] theorem State.setMotion_pool (s : State) (x : Motion) : (s.setMotion x).pool = s.pool := rfl
@[simp] theorem State.setMotion_composer (s : State) (x : Motion) : (s.setMotion x).composer = s.composer := rfl
@[simp] theorem State.setMotion_rings (s : State) (x : Motion) : (s.setMotion x).rings = s.rings := rfl
@[simp] theorem State.setMotion_ports (s : State) (x : Motion) : (s.setMotion x).ports = s.ports := rfl
@[simp] theorem State.setMotion_counters (s : State) (x : Motion) : (s.setMotion x).counters = s.counters := rfl
@[simp] theorem State.setMotion_feed (s : State) (x : Motion) : (s.setMotion x).feed = s.feed := rfl

/-! ### `setPlace` -/

@[simp] theorem State.setPlace_pending (s : State) (x : PlacementUnit) : (s.setPlace x).pending = s.pending := rfl
@[simp] theorem State.setPlace_now (s : State) (x : PlacementUnit) : (s.setPlace x).now = s.now := rfl
@[simp] theorem State.setPlace_pins (s : State) (x : PlacementUnit) : (s.setPlace x).pins = s.pins := rfl
@[simp] theorem State.setPlace_inputs (s : State) (x : PlacementUnit) : (s.setPlace x).inputs = s.inputs := rfl
@[simp] theorem State.setPlace_sampled (s : State) (x : PlacementUnit) : (s.setPlace x).sampled = s.sampled := rfl
@[simp] theorem State.setPlace_resetHeld (s : State) (x : PlacementUnit) : (s.setPlace x).resetHeld = s.resetHeld := rfl
@[simp] theorem State.setPlace_job (s : State) (x : PlacementUnit) : (s.setPlace x).job = s.job := rfl
@[simp] theorem State.setPlace_geo (s : State) (x : PlacementUnit) : (s.setPlace x).geo = s.geo := rfl
@[simp] theorem State.setPlace_motion (s : State) (x : PlacementUnit) : (s.setPlace x).motion = s.motion := rfl
@[simp] theorem State.setPlace_place (s : State) (x : PlacementUnit) : (s.setPlace x).place = x := rfl
@[simp] theorem State.setPlace_memory (s : State) (x : PlacementUnit) : (s.setPlace x).memory = s.memory := rfl
@[simp] theorem State.setPlace_templates (s : State) (x : PlacementUnit) : (s.setPlace x).templates = s.templates := rfl
@[simp] theorem State.setPlace_pool (s : State) (x : PlacementUnit) : (s.setPlace x).pool = s.pool := rfl
@[simp] theorem State.setPlace_composer (s : State) (x : PlacementUnit) : (s.setPlace x).composer = s.composer := rfl
@[simp] theorem State.setPlace_rings (s : State) (x : PlacementUnit) : (s.setPlace x).rings = s.rings := rfl
@[simp] theorem State.setPlace_ports (s : State) (x : PlacementUnit) : (s.setPlace x).ports = s.ports := rfl
@[simp] theorem State.setPlace_counters (s : State) (x : PlacementUnit) : (s.setPlace x).counters = s.counters := rfl
@[simp] theorem State.setPlace_feed (s : State) (x : PlacementUnit) : (s.setPlace x).feed = s.feed := rfl

/-! ### `setMemory` -/

@[simp] theorem State.setMemory_pending (s : State) (x : FrameMemory) : (s.setMemory x).pending = s.pending := rfl
@[simp] theorem State.setMemory_now (s : State) (x : FrameMemory) : (s.setMemory x).now = s.now := rfl
@[simp] theorem State.setMemory_pins (s : State) (x : FrameMemory) : (s.setMemory x).pins = s.pins := rfl
@[simp] theorem State.setMemory_inputs (s : State) (x : FrameMemory) : (s.setMemory x).inputs = s.inputs := rfl
@[simp] theorem State.setMemory_sampled (s : State) (x : FrameMemory) : (s.setMemory x).sampled = s.sampled := rfl
@[simp] theorem State.setMemory_resetHeld (s : State) (x : FrameMemory) : (s.setMemory x).resetHeld = s.resetHeld := rfl
@[simp] theorem State.setMemory_job (s : State) (x : FrameMemory) : (s.setMemory x).job = s.job := rfl
@[simp] theorem State.setMemory_geo (s : State) (x : FrameMemory) : (s.setMemory x).geo = s.geo := rfl
@[simp] theorem State.setMemory_motion (s : State) (x : FrameMemory) : (s.setMemory x).motion = s.motion := rfl
@[simp] theorem State.setMemory_place (s : State) (x : FrameMemory) : (s.setMemory x).place = s.place := rfl
@[simp] theorem State.setMemory_memory (s : State) (x : FrameMemory) : (s.setMemory x).memory = x := rfl
@[simp] theorem State.setMemory_templates (s : State) (x : FrameMemory) : (s.setMemory x).templates = s.templates := rfl
@[simp] theorem State.setMemory_pool (s : State) (x : FrameMemory) : (s.setMemory x).pool = s.pool := rfl
@[simp] theorem State.setMemory_composer (s : State) (x : FrameMemory) : (s.setMemory x).composer = s.composer := rfl
@[simp] theorem State.setMemory_rings (s : State) (x : FrameMemory) : (s.setMemory x).rings = s.rings := rfl
@[simp] theorem State.setMemory_ports (s : State) (x : FrameMemory) : (s.setMemory x).ports = s.ports := rfl
@[simp] theorem State.setMemory_counters (s : State) (x : FrameMemory) : (s.setMemory x).counters = s.counters := rfl
@[simp] theorem State.setMemory_feed (s : State) (x : FrameMemory) : (s.setMemory x).feed = s.feed := rfl

/-! ### `setTemplates` -/

@[simp] theorem State.setTemplates_pending (s : State) (x : TemplateStore) : (s.setTemplates x).pending = s.pending := rfl
@[simp] theorem State.setTemplates_now (s : State) (x : TemplateStore) : (s.setTemplates x).now = s.now := rfl
@[simp] theorem State.setTemplates_pins (s : State) (x : TemplateStore) : (s.setTemplates x).pins = s.pins := rfl
@[simp] theorem State.setTemplates_inputs (s : State) (x : TemplateStore) : (s.setTemplates x).inputs = s.inputs := rfl
@[simp] theorem State.setTemplates_sampled (s : State) (x : TemplateStore) : (s.setTemplates x).sampled = s.sampled := rfl
@[simp] theorem State.setTemplates_resetHeld (s : State) (x : TemplateStore) : (s.setTemplates x).resetHeld = s.resetHeld := rfl
@[simp] theorem State.setTemplates_job (s : State) (x : TemplateStore) : (s.setTemplates x).job = s.job := rfl
@[simp] theorem State.setTemplates_geo (s : State) (x : TemplateStore) : (s.setTemplates x).geo = s.geo := rfl
@[simp] theorem State.setTemplates_motion (s : State) (x : TemplateStore) : (s.setTemplates x).motion = s.motion := rfl
@[simp] theorem State.setTemplates_place (s : State) (x : TemplateStore) : (s.setTemplates x).place = s.place := rfl
@[simp] theorem State.setTemplates_memory (s : State) (x : TemplateStore) : (s.setTemplates x).memory = s.memory := rfl
@[simp] theorem State.setTemplates_templates (s : State) (x : TemplateStore) : (s.setTemplates x).templates = x := rfl
@[simp] theorem State.setTemplates_pool (s : State) (x : TemplateStore) : (s.setTemplates x).pool = s.pool := rfl
@[simp] theorem State.setTemplates_composer (s : State) (x : TemplateStore) : (s.setTemplates x).composer = s.composer := rfl
@[simp] theorem State.setTemplates_rings (s : State) (x : TemplateStore) : (s.setTemplates x).rings = s.rings := rfl
@[simp] theorem State.setTemplates_ports (s : State) (x : TemplateStore) : (s.setTemplates x).ports = s.ports := rfl
@[simp] theorem State.setTemplates_counters (s : State) (x : TemplateStore) : (s.setTemplates x).counters = s.counters := rfl
@[simp] theorem State.setTemplates_feed (s : State) (x : TemplateStore) : (s.setTemplates x).feed = s.feed := rfl

/-! ### `setPool` -/

@[simp] theorem State.setPool_pending (s : State) (x : PatchPool) : (s.setPool x).pending = s.pending := rfl
@[simp] theorem State.setPool_now (s : State) (x : PatchPool) : (s.setPool x).now = s.now := rfl
@[simp] theorem State.setPool_pins (s : State) (x : PatchPool) : (s.setPool x).pins = s.pins := rfl
@[simp] theorem State.setPool_inputs (s : State) (x : PatchPool) : (s.setPool x).inputs = s.inputs := rfl
@[simp] theorem State.setPool_sampled (s : State) (x : PatchPool) : (s.setPool x).sampled = s.sampled := rfl
@[simp] theorem State.setPool_resetHeld (s : State) (x : PatchPool) : (s.setPool x).resetHeld = s.resetHeld := rfl
@[simp] theorem State.setPool_job (s : State) (x : PatchPool) : (s.setPool x).job = s.job := rfl
@[simp] theorem State.setPool_geo (s : State) (x : PatchPool) : (s.setPool x).geo = s.geo := rfl
@[simp] theorem State.setPool_motion (s : State) (x : PatchPool) : (s.setPool x).motion = s.motion := rfl
@[simp] theorem State.setPool_place (s : State) (x : PatchPool) : (s.setPool x).place = s.place := rfl
@[simp] theorem State.setPool_memory (s : State) (x : PatchPool) : (s.setPool x).memory = s.memory := rfl
@[simp] theorem State.setPool_templates (s : State) (x : PatchPool) : (s.setPool x).templates = s.templates := rfl
@[simp] theorem State.setPool_pool (s : State) (x : PatchPool) : (s.setPool x).pool = x := rfl
@[simp] theorem State.setPool_composer (s : State) (x : PatchPool) : (s.setPool x).composer = s.composer := rfl
@[simp] theorem State.setPool_rings (s : State) (x : PatchPool) : (s.setPool x).rings = s.rings := rfl
@[simp] theorem State.setPool_ports (s : State) (x : PatchPool) : (s.setPool x).ports = s.ports := rfl
@[simp] theorem State.setPool_counters (s : State) (x : PatchPool) : (s.setPool x).counters = s.counters := rfl
@[simp] theorem State.setPool_feed (s : State) (x : PatchPool) : (s.setPool x).feed = s.feed := rfl

/-! ### `setComposer` -/

@[simp] theorem State.setComposer_pending (s : State) (x : Composer) : (s.setComposer x).pending = s.pending := rfl
@[simp] theorem State.setComposer_now (s : State) (x : Composer) : (s.setComposer x).now = s.now := rfl
@[simp] theorem State.setComposer_pins (s : State) (x : Composer) : (s.setComposer x).pins = s.pins := rfl
@[simp] theorem State.setComposer_inputs (s : State) (x : Composer) : (s.setComposer x).inputs = s.inputs := rfl
@[simp] theorem State.setComposer_sampled (s : State) (x : Composer) : (s.setComposer x).sampled = s.sampled := rfl
@[simp] theorem State.setComposer_resetHeld (s : State) (x : Composer) : (s.setComposer x).resetHeld = s.resetHeld := rfl
@[simp] theorem State.setComposer_job (s : State) (x : Composer) : (s.setComposer x).job = s.job := rfl
@[simp] theorem State.setComposer_geo (s : State) (x : Composer) : (s.setComposer x).geo = s.geo := rfl
@[simp] theorem State.setComposer_motion (s : State) (x : Composer) : (s.setComposer x).motion = s.motion := rfl
@[simp] theorem State.setComposer_place (s : State) (x : Composer) : (s.setComposer x).place = s.place := rfl
@[simp] theorem State.setComposer_memory (s : State) (x : Composer) : (s.setComposer x).memory = s.memory := rfl
@[simp] theorem State.setComposer_templates (s : State) (x : Composer) : (s.setComposer x).templates = s.templates := rfl
@[simp] theorem State.setComposer_pool (s : State) (x : Composer) : (s.setComposer x).pool = s.pool := rfl
@[simp] theorem State.setComposer_composer (s : State) (x : Composer) : (s.setComposer x).composer = x := rfl
@[simp] theorem State.setComposer_rings (s : State) (x : Composer) : (s.setComposer x).rings = s.rings := rfl
@[simp] theorem State.setComposer_ports (s : State) (x : Composer) : (s.setComposer x).ports = s.ports := rfl
@[simp] theorem State.setComposer_counters (s : State) (x : Composer) : (s.setComposer x).counters = s.counters := rfl
@[simp] theorem State.setComposer_feed (s : State) (x : Composer) : (s.setComposer x).feed = s.feed := rfl

/-! ### `setRings` -/

@[simp] theorem State.setRings_pending (s : State) (x : Table 6 Ring) : (s.setRings x).pending = s.pending := rfl
@[simp] theorem State.setRings_now (s : State) (x : Table 6 Ring) : (s.setRings x).now = s.now := rfl
@[simp] theorem State.setRings_pins (s : State) (x : Table 6 Ring) : (s.setRings x).pins = s.pins := rfl
@[simp] theorem State.setRings_inputs (s : State) (x : Table 6 Ring) : (s.setRings x).inputs = s.inputs := rfl
@[simp] theorem State.setRings_sampled (s : State) (x : Table 6 Ring) : (s.setRings x).sampled = s.sampled := rfl
@[simp] theorem State.setRings_resetHeld (s : State) (x : Table 6 Ring) : (s.setRings x).resetHeld = s.resetHeld := rfl
@[simp] theorem State.setRings_job (s : State) (x : Table 6 Ring) : (s.setRings x).job = s.job := rfl
@[simp] theorem State.setRings_geo (s : State) (x : Table 6 Ring) : (s.setRings x).geo = s.geo := rfl
@[simp] theorem State.setRings_motion (s : State) (x : Table 6 Ring) : (s.setRings x).motion = s.motion := rfl
@[simp] theorem State.setRings_place (s : State) (x : Table 6 Ring) : (s.setRings x).place = s.place := rfl
@[simp] theorem State.setRings_memory (s : State) (x : Table 6 Ring) : (s.setRings x).memory = s.memory := rfl
@[simp] theorem State.setRings_templates (s : State) (x : Table 6 Ring) : (s.setRings x).templates = s.templates := rfl
@[simp] theorem State.setRings_pool (s : State) (x : Table 6 Ring) : (s.setRings x).pool = s.pool := rfl
@[simp] theorem State.setRings_composer (s : State) (x : Table 6 Ring) : (s.setRings x).composer = s.composer := rfl
@[simp] theorem State.setRings_rings (s : State) (x : Table 6 Ring) : (s.setRings x).rings = x := rfl
@[simp] theorem State.setRings_ports (s : State) (x : Table 6 Ring) : (s.setRings x).ports = s.ports := rfl
@[simp] theorem State.setRings_counters (s : State) (x : Table 6 Ring) : (s.setRings x).counters = s.counters := rfl
@[simp] theorem State.setRings_feed (s : State) (x : Table 6 Ring) : (s.setRings x).feed = s.feed := rfl

/-! ### `setPorts` -/

@[simp] theorem State.setPorts_pending (s : State) (x : Table 12 HeadPort) : (s.setPorts x).pending = s.pending := rfl
@[simp] theorem State.setPorts_now (s : State) (x : Table 12 HeadPort) : (s.setPorts x).now = s.now := rfl
@[simp] theorem State.setPorts_pins (s : State) (x : Table 12 HeadPort) : (s.setPorts x).pins = s.pins := rfl
@[simp] theorem State.setPorts_inputs (s : State) (x : Table 12 HeadPort) : (s.setPorts x).inputs = s.inputs := rfl
@[simp] theorem State.setPorts_sampled (s : State) (x : Table 12 HeadPort) : (s.setPorts x).sampled = s.sampled := rfl
@[simp] theorem State.setPorts_resetHeld (s : State) (x : Table 12 HeadPort) : (s.setPorts x).resetHeld = s.resetHeld := rfl
@[simp] theorem State.setPorts_job (s : State) (x : Table 12 HeadPort) : (s.setPorts x).job = s.job := rfl
@[simp] theorem State.setPorts_geo (s : State) (x : Table 12 HeadPort) : (s.setPorts x).geo = s.geo := rfl
@[simp] theorem State.setPorts_motion (s : State) (x : Table 12 HeadPort) : (s.setPorts x).motion = s.motion := rfl
@[simp] theorem State.setPorts_place (s : State) (x : Table 12 HeadPort) : (s.setPorts x).place = s.place := rfl
@[simp] theorem State.setPorts_memory (s : State) (x : Table 12 HeadPort) : (s.setPorts x).memory = s.memory := rfl
@[simp] theorem State.setPorts_templates (s : State) (x : Table 12 HeadPort) : (s.setPorts x).templates = s.templates := rfl
@[simp] theorem State.setPorts_pool (s : State) (x : Table 12 HeadPort) : (s.setPorts x).pool = s.pool := rfl
@[simp] theorem State.setPorts_composer (s : State) (x : Table 12 HeadPort) : (s.setPorts x).composer = s.composer := rfl
@[simp] theorem State.setPorts_rings (s : State) (x : Table 12 HeadPort) : (s.setPorts x).rings = s.rings := rfl
@[simp] theorem State.setPorts_ports (s : State) (x : Table 12 HeadPort) : (s.setPorts x).ports = x := rfl
@[simp] theorem State.setPorts_counters (s : State) (x : Table 12 HeadPort) : (s.setPorts x).counters = s.counters := rfl
@[simp] theorem State.setPorts_feed (s : State) (x : Table 12 HeadPort) : (s.setPorts x).feed = s.feed := rfl

/-! ### `setCounters` -/

@[simp] theorem State.setCounters_pending (s : State) (x : Counters) : (s.setCounters x).pending = s.pending := rfl
@[simp] theorem State.setCounters_now (s : State) (x : Counters) : (s.setCounters x).now = s.now := rfl
@[simp] theorem State.setCounters_pins (s : State) (x : Counters) : (s.setCounters x).pins = s.pins := rfl
@[simp] theorem State.setCounters_inputs (s : State) (x : Counters) : (s.setCounters x).inputs = s.inputs := rfl
@[simp] theorem State.setCounters_sampled (s : State) (x : Counters) : (s.setCounters x).sampled = s.sampled := rfl
@[simp] theorem State.setCounters_resetHeld (s : State) (x : Counters) : (s.setCounters x).resetHeld = s.resetHeld := rfl
@[simp] theorem State.setCounters_job (s : State) (x : Counters) : (s.setCounters x).job = s.job := rfl
@[simp] theorem State.setCounters_geo (s : State) (x : Counters) : (s.setCounters x).geo = s.geo := rfl
@[simp] theorem State.setCounters_motion (s : State) (x : Counters) : (s.setCounters x).motion = s.motion := rfl
@[simp] theorem State.setCounters_place (s : State) (x : Counters) : (s.setCounters x).place = s.place := rfl
@[simp] theorem State.setCounters_memory (s : State) (x : Counters) : (s.setCounters x).memory = s.memory := rfl
@[simp] theorem State.setCounters_templates (s : State) (x : Counters) : (s.setCounters x).templates = s.templates := rfl
@[simp] theorem State.setCounters_pool (s : State) (x : Counters) : (s.setCounters x).pool = s.pool := rfl
@[simp] theorem State.setCounters_composer (s : State) (x : Counters) : (s.setCounters x).composer = s.composer := rfl
@[simp] theorem State.setCounters_rings (s : State) (x : Counters) : (s.setCounters x).rings = s.rings := rfl
@[simp] theorem State.setCounters_ports (s : State) (x : Counters) : (s.setCounters x).ports = s.ports := rfl
@[simp] theorem State.setCounters_counters (s : State) (x : Counters) : (s.setCounters x).counters = x := rfl
@[simp] theorem State.setCounters_feed (s : State) (x : Counters) : (s.setCounters x).feed = s.feed := rfl

/-! ### `setFeed` -/

@[simp] theorem State.setFeed_pending (s : State) (x : Feed) : (s.setFeed x).pending = s.pending := rfl
@[simp] theorem State.setFeed_now (s : State) (x : Feed) : (s.setFeed x).now = s.now := rfl
@[simp] theorem State.setFeed_pins (s : State) (x : Feed) : (s.setFeed x).pins = s.pins := rfl
@[simp] theorem State.setFeed_inputs (s : State) (x : Feed) : (s.setFeed x).inputs = s.inputs := rfl
@[simp] theorem State.setFeed_sampled (s : State) (x : Feed) : (s.setFeed x).sampled = s.sampled := rfl
@[simp] theorem State.setFeed_resetHeld (s : State) (x : Feed) : (s.setFeed x).resetHeld = s.resetHeld := rfl
@[simp] theorem State.setFeed_job (s : State) (x : Feed) : (s.setFeed x).job = s.job := rfl
@[simp] theorem State.setFeed_geo (s : State) (x : Feed) : (s.setFeed x).geo = s.geo := rfl
@[simp] theorem State.setFeed_motion (s : State) (x : Feed) : (s.setFeed x).motion = s.motion := rfl
@[simp] theorem State.setFeed_place (s : State) (x : Feed) : (s.setFeed x).place = s.place := rfl
@[simp] theorem State.setFeed_memory (s : State) (x : Feed) : (s.setFeed x).memory = s.memory := rfl
@[simp] theorem State.setFeed_templates (s : State) (x : Feed) : (s.setFeed x).templates = s.templates := rfl
@[simp] theorem State.setFeed_pool (s : State) (x : Feed) : (s.setFeed x).pool = s.pool := rfl
@[simp] theorem State.setFeed_composer (s : State) (x : Feed) : (s.setFeed x).composer = s.composer := rfl
@[simp] theorem State.setFeed_rings (s : State) (x : Feed) : (s.setFeed x).rings = s.rings := rfl
@[simp] theorem State.setFeed_ports (s : State) (x : Feed) : (s.setFeed x).ports = s.ports := rfl
@[simp] theorem State.setFeed_counters (s : State) (x : Feed) : (s.setFeed x).counters = s.counters := rfl
@[simp] theorem State.setFeed_feed (s : State) (x : Feed) : (s.setFeed x).feed = x := rfl

/-! ### `updPort` -/

@[simp] theorem State.updPort_pending (s : State) (h : Port) (f : HeadPort → HeadPort) : (s.updPort h f).pending = s.pending := rfl
@[simp] theorem State.updPort_now (s : State) (h : Port) (f : HeadPort → HeadPort) : (s.updPort h f).now = s.now := rfl
@[simp] theorem State.updPort_pins (s : State) (h : Port) (f : HeadPort → HeadPort) : (s.updPort h f).pins = s.pins := rfl
@[simp] theorem State.updPort_inputs (s : State) (h : Port) (f : HeadPort → HeadPort) : (s.updPort h f).inputs = s.inputs := rfl
@[simp] theorem State.updPort_sampled (s : State) (h : Port) (f : HeadPort → HeadPort) : (s.updPort h f).sampled = s.sampled := rfl
@[simp] theorem State.updPort_resetHeld (s : State) (h : Port) (f : HeadPort → HeadPort) : (s.updPort h f).resetHeld = s.resetHeld := rfl
@[simp] theorem State.updPort_job (s : State) (h : Port) (f : HeadPort → HeadPort) : (s.updPort h f).job = s.job := rfl
@[simp] theorem State.updPort_geo (s : State) (h : Port) (f : HeadPort → HeadPort) : (s.updPort h f).geo = s.geo := rfl
@[simp] theorem State.updPort_motion (s : State) (h : Port) (f : HeadPort → HeadPort) : (s.updPort h f).motion = s.motion := rfl
@[simp] theorem State.updPort_place (s : State) (h : Port) (f : HeadPort → HeadPort) : (s.updPort h f).place = s.place := rfl
@[simp] theorem State.updPort_memory (s : State) (h : Port) (f : HeadPort → HeadPort) : (s.updPort h f).memory = s.memory := rfl
@[simp] theorem State.updPort_templates (s : State) (h : Port) (f : HeadPort → HeadPort) : (s.updPort h f).templates = s.templates := rfl
@[simp] theorem State.updPort_pool (s : State) (h : Port) (f : HeadPort → HeadPort) : (s.updPort h f).pool = s.pool := rfl
@[simp] theorem State.updPort_composer (s : State) (h : Port) (f : HeadPort → HeadPort) : (s.updPort h f).composer = s.composer := rfl
@[simp] theorem State.updPort_rings (s : State) (h : Port) (f : HeadPort → HeadPort) : (s.updPort h f).rings = s.rings := rfl
@[simp] theorem State.updPort_ports (s : State) (h : Port) (f : HeadPort → HeadPort) : (s.updPort h f).ports = s.ports.upd h f := rfl
@[simp] theorem State.updPort_counters (s : State) (h : Port) (f : HeadPort → HeadPort) : (s.updPort h f).counters = s.counters := rfl
@[simp] theorem State.updPort_feed (s : State) (h : Port) (f : HeadPort → HeadPort) : (s.updPort h f).feed = s.feed := rfl

/-! ### `updRow` -/

@[simp] theorem State.updRow_pending (s : State) (h : Port) (k : RowIx) (f : Row → Row) : (s.updRow h k f).pending = s.pending := rfl
@[simp] theorem State.updRow_now (s : State) (h : Port) (k : RowIx) (f : Row → Row) : (s.updRow h k f).now = s.now := rfl
@[simp] theorem State.updRow_pins (s : State) (h : Port) (k : RowIx) (f : Row → Row) : (s.updRow h k f).pins = s.pins := rfl
@[simp] theorem State.updRow_inputs (s : State) (h : Port) (k : RowIx) (f : Row → Row) : (s.updRow h k f).inputs = s.inputs := rfl
@[simp] theorem State.updRow_sampled (s : State) (h : Port) (k : RowIx) (f : Row → Row) : (s.updRow h k f).sampled = s.sampled := rfl
@[simp] theorem State.updRow_resetHeld (s : State) (h : Port) (k : RowIx) (f : Row → Row) : (s.updRow h k f).resetHeld = s.resetHeld := rfl
@[simp] theorem State.updRow_job (s : State) (h : Port) (k : RowIx) (f : Row → Row) : (s.updRow h k f).job = s.job := rfl
@[simp] theorem State.updRow_geo (s : State) (h : Port) (k : RowIx) (f : Row → Row) : (s.updRow h k f).geo = s.geo := rfl
@[simp] theorem State.updRow_motion (s : State) (h : Port) (k : RowIx) (f : Row → Row) : (s.updRow h k f).motion = s.motion := rfl
@[simp] theorem State.updRow_place (s : State) (h : Port) (k : RowIx) (f : Row → Row) : (s.updRow h k f).place = s.place := rfl
@[simp] theorem State.updRow_memory (s : State) (h : Port) (k : RowIx) (f : Row → Row) : (s.updRow h k f).memory = s.memory := rfl
@[simp] theorem State.updRow_templates (s : State) (h : Port) (k : RowIx) (f : Row → Row) : (s.updRow h k f).templates = s.templates := rfl
@[simp] theorem State.updRow_pool (s : State) (h : Port) (k : RowIx) (f : Row → Row) : (s.updRow h k f).pool = s.pool := rfl
@[simp] theorem State.updRow_composer (s : State) (h : Port) (k : RowIx) (f : Row → Row) : (s.updRow h k f).composer = s.composer := rfl
@[simp] theorem State.updRow_rings (s : State) (h : Port) (k : RowIx) (f : Row → Row) : (s.updRow h k f).rings = s.rings := rfl
@[simp] theorem State.updRow_ports (s : State) (h : Port) (k : RowIx) (f : Row → Row) : (s.updRow h k f).ports = s.ports.upd h (fun p => { p with rows := p.rows.upd k f }) := rfl
@[simp] theorem State.updRow_counters (s : State) (h : Port) (k : RowIx) (f : Row → Row) : (s.updRow h k f).counters = s.counters := rfl
@[simp] theorem State.updRow_feed (s : State) (h : Port) (k : RowIx) (f : Row → Row) : (s.updRow h k f).feed = s.feed := rfl

/-! ### `updRing` -/

@[simp] theorem State.updRing_pending (s : State) (p : Plane) (f : Ring → Ring) : (s.updRing p f).pending = s.pending := rfl
@[simp] theorem State.updRing_now (s : State) (p : Plane) (f : Ring → Ring) : (s.updRing p f).now = s.now := rfl
@[simp] theorem State.updRing_pins (s : State) (p : Plane) (f : Ring → Ring) : (s.updRing p f).pins = s.pins := rfl
@[simp] theorem State.updRing_inputs (s : State) (p : Plane) (f : Ring → Ring) : (s.updRing p f).inputs = s.inputs := rfl
@[simp] theorem State.updRing_sampled (s : State) (p : Plane) (f : Ring → Ring) : (s.updRing p f).sampled = s.sampled := rfl
@[simp] theorem State.updRing_resetHeld (s : State) (p : Plane) (f : Ring → Ring) : (s.updRing p f).resetHeld = s.resetHeld := rfl
@[simp] theorem State.updRing_job (s : State) (p : Plane) (f : Ring → Ring) : (s.updRing p f).job = s.job := rfl
@[simp] theorem State.updRing_geo (s : State) (p : Plane) (f : Ring → Ring) : (s.updRing p f).geo = s.geo := rfl
@[simp] theorem State.updRing_motion (s : State) (p : Plane) (f : Ring → Ring) : (s.updRing p f).motion = s.motion := rfl
@[simp] theorem State.updRing_place (s : State) (p : Plane) (f : Ring → Ring) : (s.updRing p f).place = s.place := rfl
@[simp] theorem State.updRing_memory (s : State) (p : Plane) (f : Ring → Ring) : (s.updRing p f).memory = s.memory := rfl
@[simp] theorem State.updRing_templates (s : State) (p : Plane) (f : Ring → Ring) : (s.updRing p f).templates = s.templates := rfl
@[simp] theorem State.updRing_pool (s : State) (p : Plane) (f : Ring → Ring) : (s.updRing p f).pool = s.pool := rfl
@[simp] theorem State.updRing_composer (s : State) (p : Plane) (f : Ring → Ring) : (s.updRing p f).composer = s.composer := rfl
@[simp] theorem State.updRing_rings (s : State) (p : Plane) (f : Ring → Ring) : (s.updRing p f).rings = s.rings.upd p f := rfl
@[simp] theorem State.updRing_ports (s : State) (p : Plane) (f : Ring → Ring) : (s.updRing p f).ports = s.ports := rfl
@[simp] theorem State.updRing_counters (s : State) (p : Plane) (f : Ring → Ring) : (s.updRing p f).counters = s.counters := rfl
@[simp] theorem State.updRing_feed (s : State) (p : Plane) (f : Ring → Ring) : (s.updRing p f).feed = s.feed := rfl

end Sys2Proof.Machine
end

