-- ==== Sys2Proof/Laws/Tables.lean ====
section
/-! SUPPORT. Laws/Tables.lean: reading a table after each of its updates. -/

namespace Sys2Proof

variable {n : Nat} {α : Type}

@[simp] theorem Table.get_put_self (t : Table n α) (i : Fin n) (x : α) : (t.put i x).get i = x := by
  simp [Table.get, Table.put]

theorem Table.get_put_ne (t : Table n α) {i j : Fin n} (x : α) (h : i ≠ j) : (t.put i x).get j = t.get j := by
  have : i.val ≠ j.val := fun e => h (Fin.ext e)
  simp [Table.get, Table.put, this]

theorem Table.get_put (t : Table n α) (i j : Fin n) (x : α) : (t.put i x).get j = if i = j then x else t.get j := by
  split
  · next h => subst h; simp
  · next h => exact t.get_put_ne x h

@[simp] theorem Table.get_upd_self (t : Table n α) (i : Fin n) (f : α → α) : (t.upd i f).get i = f (t.get i) := by
  simp [Table.upd]

theorem Table.get_upd_ne (t : Table n α) {i j : Fin n} (f : α → α) (h : i ≠ j) : (t.upd i f).get j = t.get j :=
  t.get_put_ne _ h

theorem Table.get_upd (t : Table n α) (i j : Fin n) (f : α → α) :
    (t.upd i f).get j = if i = j then f (t.get j) else t.get j := by
  split
  · next h => subst h; simp
  · next h => exact t.get_upd_ne f h

@[simp] theorem Table.get_ofFun (f : Fin n → α) (i : Fin n) : (Table.ofFun f).get i = f i := by
  simp [Table.get, Table.ofFun]

@[simp] theorem Table.get_all (x : α) (i : Fin n) : (Table.all n x).get i = x := by
  simp [Table.get, Table.all]

/-- Two tables with the same entries are equal. -/
theorem Table.ext_get {t u : Table n α} (h : ∀ i : Fin n, t.get i = u.get i) : t = u :=
  Vector.ext fun i hi => h ⟨i, hi⟩

@[simp] theorem Table.put_get_self (t : Table n α) (i : Fin n) : t.put i (t.get i) = t :=
  Table.ext_get fun j => by rw [Table.get_put]; split <;> simp_all

end Sys2Proof
end

