-- ==== Sys2Proof/Laws/Shared.lean ====
section
/-! SUPPORT. Laws/Shared.lean: what the operations every block shares can do: placing a notice, counting an event, ending an event,
answering a request, and the reports of a row. -/

namespace Sys2Proof.Machine

/-! ### Placing a notice (R172) -/

/-- Everything placing a notice can do: it changes the link's queues alone. -/
theorem placeNotice_eq (n : Notice) (s : State) :
    placeNotice n s = s.setFeed (if s.feed.mask.getLsbD n.kind then
      if s.feed.notices.length < Config.noticeEntries then
        { s.feed with notices := s.feed.notices ++ [(s.feed.placed, n)], placed := s.feed.placed + 1 }
      else { s.feed with noticesLost := true }
    else s.feed) := by
  unfold placeNotice
  split
  · split <;> rfl
  · rfl

@[simp] theorem placeNotice_pending (n : Notice) (s : State) : (placeNotice n s).pending = s.pending := by rw [placeNotice_eq]; rfl
@[simp] theorem placeNotice_now (n : Notice) (s : State) : (placeNotice n s).now = s.now := by rw [placeNotice_eq]; rfl
@[simp] theorem placeNotice_pins (n : Notice) (s : State) : (placeNotice n s).pins = s.pins := by rw [placeNotice_eq]; rfl
@[simp] theorem placeNotice_inputs (n : Notice) (s : State) : (placeNotice n s).inputs = s.inputs := by rw [placeNotice_eq]; rfl
@[simp] theorem placeNotice_sampled (n : Notice) (s : State) : (placeNotice n s).sampled = s.sampled := by rw [placeNotice_eq]; rfl
@[simp] theorem placeNotice_resetHeld (n : Notice) (s : State) : (placeNotice n s).resetHeld = s.resetHeld := by rw [placeNotice_eq]; rfl
@[simp] theorem placeNotice_job (n : Notice) (s : State) : (placeNotice n s).job = s.job := by rw [placeNotice_eq]; rfl
@[simp] theorem placeNotice_geo (n : Notice) (s : State) : (placeNotice n s).geo = s.geo := by rw [placeNotice_eq]; rfl
@[simp] theorem placeNotice_motion (n : Notice) (s : State) : (placeNotice n s).motion = s.motion := by rw [placeNotice_eq]; rfl
@[simp] theorem placeNotice_place (n : Notice) (s : State) : (placeNotice n s).place = s.place := by rw [placeNotice_eq]; rfl
@[simp] theorem placeNotice_memory (n : Notice) (s : State) : (placeNotice n s).memory = s.memory := by rw [placeNotice_eq]; rfl
@[simp] theorem placeNotice_templates (n : Notice) (s : State) : (placeNotice n s).templates = s.templates := by rw [placeNotice_eq]; rfl
@[simp] theorem placeNotice_pool (n : Notice) (s : State) : (placeNotice n s).pool = s.pool := by rw [placeNotice_eq]; rfl
@[simp] theorem placeNotice_composer (n : Notice) (s : State) : (placeNotice n s).composer = s.composer := by rw [placeNotice_eq]; rfl
@[simp] theorem placeNotice_rings (n : Notice) (s : State) : (placeNotice n s).rings = s.rings := by rw [placeNotice_eq]; rfl
@[simp] theorem placeNotice_ports (n : Notice) (s : State) : (placeNotice n s).ports = s.ports := by rw [placeNotice_eq]; rfl
@[simp] theorem placeNotice_counters (n : Notice) (s : State) : (placeNotice n s).counters = s.counters := by rw [placeNotice_eq]; rfl

@[simp] theorem placeNotice_feed_link (n : Notice) (s : State) : (placeNotice n s).feed.link = s.feed.link := by
  rw [placeNotice_eq]; simp only [State.setFeed_feed]; split_ifs <;> rfl
@[simp] theorem placeNotice_feed_trainingStart (n : Notice) (s : State) : (placeNotice n s).feed.trainingStart = s.feed.trainingStart := by
  rw [placeNotice_eq]; simp only [State.setFeed_feed]; split_ifs <;> rfl
@[simp] theorem placeNotice_feed_incoming (n : Notice) (s : State) : (placeNotice n s).feed.incoming = s.feed.incoming := by
  rw [placeNotice_eq]; simp only [State.setFeed_feed]; split_ifs <;> rfl
@[simp] theorem placeNotice_feed_credit (n : Notice) (s : State) : (placeNotice n s).feed.credit = s.feed.credit := by
  rw [placeNotice_eq]; simp only [State.setFeed_feed]; split_ifs <;> rfl
@[simp] theorem placeNotice_feed_channels (n : Notice) (s : State) : (placeNotice n s).feed.channels = s.feed.channels := by
  rw [placeNotice_eq]; simp only [State.setFeed_feed]; split_ifs <;> rfl
@[simp] theorem placeNotice_feed_order (n : Notice) (s : State) : (placeNotice n s).feed.order = s.feed.order := by
  rw [placeNotice_eq]; simp only [State.setFeed_feed]; split_ifs <;> rfl
@[simp] theorem placeNotice_feed_requests (n : Notice) (s : State) : (placeNotice n s).feed.requests = s.feed.requests := by
  rw [placeNotice_eq]; simp only [State.setFeed_feed]; split_ifs <;> rfl
@[simp] theorem placeNotice_feed_awaiting (n : Notice) (s : State) : (placeNotice n s).feed.awaiting = s.feed.awaiting := by
  rw [placeNotice_eq]; simp only [State.setFeed_feed]; split_ifs <;> rfl
@[simp] theorem placeNotice_feed_replies (n : Notice) (s : State) : (placeNotice n s).feed.replies = s.feed.replies := by
  rw [placeNotice_eq]; simp only [State.setFeed_feed]; split_ifs <;> rfl
@[simp] theorem placeNotice_feed_mask (n : Notice) (s : State) : (placeNotice n s).feed.mask = s.feed.mask := by
  rw [placeNotice_eq]; simp only [State.setFeed_feed]; split_ifs <;> rfl
@[simp] theorem placeNotice_feed_sending (n : Notice) (s : State) : (placeNotice n s).feed.sending = s.feed.sending := by
  rw [placeNotice_eq]; simp only [State.setFeed_feed]; split_ifs <;> rfl
@[simp] theorem placeNotice_feed_sent (n : Notice) (s : State) : (placeNotice n s).feed.sent = s.feed.sent := by
  rw [placeNotice_eq]; simp only [State.setFeed_feed]; split_ifs <;> rfl

/-- A notice queue within its bound stays within it. -/
theorem placeNotice_notices_le (n : Notice) (s : State) (h : s.feed.notices.length ≤ Config.noticeEntries) :
    (placeNotice n s).feed.notices.length ≤ Config.noticeEntries := by
  rw [placeNotice_eq]
  simp only [State.setFeed_feed]
  split_ifs with h1 h2
  · simp only [List.length_append, List.length_singleton]; omega
  · exact h
  · exact h

/-- A notice of a disabled kind has no effect. -/
theorem placeNotice_masked (n : Notice) (s : State) (h : s.feed.mask.getLsbD n.kind = false) : placeNotice n s = s := by
  unfold placeNotice
  rw [h]
  rfl

/-! ### Event counters (R175) -/

/-- No two counters share a slot. -/
theorem CounterId.ix_injective {c d : CounterId} (h : c.ix = d.ix) : c = d := by
  have h : c.slot = d.slot := congrArg Fin.val h
  cases c <;> cases d <;> simp only [CounterId.slot] at h <;> first | rfl | omega | (congr 1; exact Fin.ext (by omega))

/-- Everything an increment can do: the counter and its flag, and a FIRST EVENT notice when the flag was clear. -/
theorem bump_eq (c : CounterId) (s : State) :
    bump c s = if s.isAnnounced c then s.setCounters (s.counters.increment c)
      else placeNotice (.firstEvent c) (s.setCounters (s.counters.increment c)) := rfl

@[simp] theorem bump_counters (c : CounterId) (s : State) : (bump c s).counters = s.counters.increment c := by
  rw [bump_eq]; split <;> simp
@[simp] theorem bump_pending (c : CounterId) (s : State) : (bump c s).pending = s.pending := by rw [bump_eq]; split <;> simp
@[simp] theorem bump_now (c : CounterId) (s : State) : (bump c s).now = s.now := by rw [bump_eq]; split <;> simp
@[simp] theorem bump_pins (c : CounterId) (s : State) : (bump c s).pins = s.pins := by rw [bump_eq]; split <;> simp
@[simp] theorem bump_inputs (c : CounterId) (s : State) : (bump c s).inputs = s.inputs := by rw [bump_eq]; split <;> simp
@[simp] theorem bump_sampled (c : CounterId) (s : State) : (bump c s).sampled = s.sampled := by rw [bump_eq]; split <;> simp
@[simp] theorem bump_resetHeld (c : CounterId) (s : State) : (bump c s).resetHeld = s.resetHeld := by rw [bump_eq]; split <;> simp
@[simp] theorem bump_job (c : CounterId) (s : State) : (bump c s).job = s.job := by rw [bump_eq]; split <;> simp
@[simp] theorem bump_geo (c : CounterId) (s : State) : (bump c s).geo = s.geo := by rw [bump_eq]; split <;> simp
@[simp] theorem bump_motion (c : CounterId) (s : State) : (bump c s).motion = s.motion := by rw [bump_eq]; split <;> simp
@[simp] theorem bump_place (c : CounterId) (s : State) : (bump c s).place = s.place := by rw [bump_eq]; split <;> simp
@[simp] theorem bump_memory (c : CounterId) (s : State) : (bump c s).memory = s.memory := by rw [bump_eq]; split <;> simp
@[simp] theorem bump_templates (c : CounterId) (s : State) : (bump c s).templates = s.templates := by rw [bump_eq]; split <;> simp
@[simp] theorem bump_pool (c : CounterId) (s : State) : (bump c s).pool = s.pool := by rw [bump_eq]; split <;> simp
@[simp] theorem bump_composer (c : CounterId) (s : State) : (bump c s).composer = s.composer := by rw [bump_eq]; split <;> simp
@[simp] theorem bump_rings (c : CounterId) (s : State) : (bump c s).rings = s.rings := by rw [bump_eq]; split <;> simp
@[simp] theorem bump_ports (c : CounterId) (s : State) : (bump c s).ports = s.ports := by rw [bump_eq]; split <;> simp
@[simp] theorem bump_feed_link (c : CounterId) (s : State) : (bump c s).feed.link = s.feed.link := by rw [bump_eq]; split <;> simp
@[simp] theorem bump_feed_trainingStart (c : CounterId) (s : State) : (bump c s).feed.trainingStart = s.feed.trainingStart := by rw [bump_eq]; split <;> simp
@[simp] theorem bump_feed_incoming (c : CounterId) (s : State) : (bump c s).feed.incoming = s.feed.incoming := by rw [bump_eq]; split <;> simp
@[simp] theorem bump_feed_credit (c : CounterId) (s : State) : (bump c s).feed.credit = s.feed.credit := by rw [bump_eq]; split <;> simp
@[simp] theorem bump_feed_channels (c : CounterId) (s : State) : (bump c s).feed.channels = s.feed.channels := by rw [bump_eq]; split <;> simp
@[simp] theorem bump_feed_order (c : CounterId) (s : State) : (bump c s).feed.order = s.feed.order := by rw [bump_eq]; split <;> simp
@[simp] theorem bump_feed_requests (c : CounterId) (s : State) : (bump c s).feed.requests = s.feed.requests := by rw [bump_eq]; split <;> simp
@[simp] theorem bump_feed_awaiting (c : CounterId) (s : State) : (bump c s).feed.awaiting = s.feed.awaiting := by rw [bump_eq]; split <;> simp
@[simp] theorem bump_feed_replies (c : CounterId) (s : State) : (bump c s).feed.replies = s.feed.replies := by rw [bump_eq]; split <;> simp
@[simp] theorem bump_feed_mask (c : CounterId) (s : State) : (bump c s).feed.mask = s.feed.mask := by rw [bump_eq]; split <;> simp
@[simp] theorem bump_feed_sending (c : CounterId) (s : State) : (bump c s).feed.sending = s.feed.sending := by rw [bump_eq]; split <;> simp
@[simp] theorem bump_feed_sent (c : CounterId) (s : State) : (bump c s).feed.sent = s.feed.sent := by rw [bump_eq]; split <;> simp

/-- An incremented counter counts one more, up to its limit, and no other counter changes. -/
theorem countOf_bump (c d : CounterId) (s : State) :
    (bump c s).countOf d = if d = c then saturatingInc (s.countOf c) else s.countOf d := by
  simp only [State.countOf, bump_counters, Counters.increment, Table.get_upd]
  by_cases h : d = c
  · subst h; simp
  · rw [if_neg h, if_neg (fun e => h (CounterId.ix_injective e).symm)]

/-- An incremented counter is announced, and no other counter's flag changes. -/
theorem isAnnounced_bump (c d : CounterId) (s : State) :
    (bump c s).isAnnounced d = if d = c then true else s.isAnnounced d := by
  simp only [State.isAnnounced, bump_counters, Counters.increment, Table.get_put]
  by_cases h : d = c
  · subst h; simp
  · rw [if_neg h, if_neg (fun e => h (CounterId.ix_injective e).symm)]

/-! ### The end of an event (R164, R174) -/

/-- What the end of an event leaves alone: everything but the credit limits and the transmitter's choice. -/
structure EndKeeps (s t : State) : Prop where
  outside : t = { s with feed := t.feed }
  fields : t.feed = { s.feed with credit := t.feed.credit, sending := t.feed.sending }
  received : ∀ c : Fin 4, (t.feed.credit.get c).received = (s.feed.credit.get c).received
  announced : ∀ c : Fin 4, (t.feed.credit.get c).announced = (s.feed.credit.get c).announced

theorem EndKeeps.refl (s : State) : EndKeeps s s := ⟨rfl, rfl, fun _ => rfl, fun _ => rfl⟩

theorem EndKeeps.trans {s t u : State} (h1 : EndKeeps s t) (h2 : EndKeeps t u) : EndKeeps s u where
  outside := by rw [h2.outside, h1.outside]
  fields := by rw [h2.fields, h1.fields]
  received c := (h2.received c).trans (h1.received c)
  announced c := (h2.announced c).trans (h1.announced c)

/-- Setting one limit keeps everything else. -/
theorem EndKeeps.ofLimit (s : State) (i : Fin 4) (l : Credit → BitVec 16) :
    EndKeeps s (s.setFeed { s.feed with credit := s.feed.credit.upd i (fun k => { k with limit := l k }) }) where
  outside := rfl
  fields := rfl
  received c := by simp only [State.setFeed_feed, Table.get_upd]; split <;> rfl
  announced c := by simp only [State.setFeed_feed, Table.get_upd]; split <;> rfl

/-- The transmitter's choice keeps everything else. -/
theorem EndKeeps.ofChoice (s : State) : EndKeeps s (chooseSending s) := by
  unfold chooseSending
  split
  · exact ⟨rfl, rfl, fun _ => rfl, fun _ => rfl⟩
  · exact .refl s

theorem EndKeeps.ofDataLimit (s : State) (c : DataCh) : EndKeeps s (refreshDataLimit s c) := by
  unfold refreshDataLimit
  split
  · exact .ofLimit s (linkIx c) _
  · exact .refl s

/-- The end of an event changes the credit limits and the transmitter's choice, and nothing else. -/
theorem finish_keeps (s : State) : EndKeeps s (finish s) := by
  have h0 : EndKeeps s (refreshRequestLimit s) := by
    unfold refreshRequestLimit
    split
    · exact .ofLimit s 0 _
    · exact .refl s
  have h : EndKeeps s (refreshLimits s) := by
    simp only [refreshLimits, allDataCh, List.foldl_cons, List.foldl_nil]
    exact ((h0.trans (.ofDataLimit _ 0)).trans (.ofDataLimit _ 1)).trans (.ofDataLimit _ 2)
  exact h.trans (.ofChoice _)

@[simp] theorem finish_pending (s : State) : (finish s).pending = s.pending := by rw [(finish_keeps s).outside]
@[simp] theorem finish_now (s : State) : (finish s).now = s.now := by rw [(finish_keeps s).outside]
@[simp] theorem finish_pins (s : State) : (finish s).pins = s.pins := by rw [(finish_keeps s).outside]
@[simp] theorem finish_inputs (s : State) : (finish s).inputs = s.inputs := by rw [(finish_keeps s).outside]
@[simp] theorem finish_sampled (s : State) : (finish s).sampled = s.sampled := by rw [(finish_keeps s).outside]
@[simp] theorem finish_resetHeld (s : State) : (finish s).resetHeld = s.resetHeld := by rw [(finish_keeps s).outside]
@[simp] theorem finish_job (s : State) : (finish s).job = s.job := by rw [(finish_keeps s).outside]
@[simp] theorem finish_geo (s : State) : (finish s).geo = s.geo := by rw [(finish_keeps s).outside]
@[simp] theorem finish_motion (s : State) : (finish s).motion = s.motion := by rw [(finish_keeps s).outside]
@[simp] theorem finish_place (s : State) : (finish s).place = s.place := by rw [(finish_keeps s).outside]
@[simp] theorem finish_memory (s : State) : (finish s).memory = s.memory := by rw [(finish_keeps s).outside]
@[simp] theorem finish_templates (s : State) : (finish s).templates = s.templates := by rw [(finish_keeps s).outside]
@[simp] theorem finish_pool (s : State) : (finish s).pool = s.pool := by rw [(finish_keeps s).outside]
@[simp] theorem finish_composer (s : State) : (finish s).composer = s.composer := by rw [(finish_keeps s).outside]
@[simp] theorem finish_rings (s : State) : (finish s).rings = s.rings := by rw [(finish_keeps s).outside]
@[simp] theorem finish_ports (s : State) : (finish s).ports = s.ports := by rw [(finish_keeps s).outside]
@[simp] theorem finish_counters (s : State) : (finish s).counters = s.counters := by rw [(finish_keeps s).outside]
@[simp] theorem finish_feed_link (s : State) : (finish s).feed.link = s.feed.link := by rw [(finish_keeps s).fields]
@[simp] theorem finish_feed_trainingStart (s : State) : (finish s).feed.trainingStart = s.feed.trainingStart := by rw [(finish_keeps s).fields]
@[simp] theorem finish_feed_incoming (s : State) : (finish s).feed.incoming = s.feed.incoming := by rw [(finish_keeps s).fields]
@[simp] theorem finish_feed_channels (s : State) : (finish s).feed.channels = s.feed.channels := by rw [(finish_keeps s).fields]
@[simp] theorem finish_feed_order (s : State) : (finish s).feed.order = s.feed.order := by rw [(finish_keeps s).fields]
@[simp] theorem finish_feed_requests (s : State) : (finish s).feed.requests = s.feed.requests := by rw [(finish_keeps s).fields]
@[simp] theorem finish_feed_awaiting (s : State) : (finish s).feed.awaiting = s.feed.awaiting := by rw [(finish_keeps s).fields]
@[simp] theorem finish_feed_replies (s : State) : (finish s).feed.replies = s.feed.replies := by rw [(finish_keeps s).fields]
@[simp] theorem finish_feed_notices (s : State) : (finish s).feed.notices = s.feed.notices := by rw [(finish_keeps s).fields]
@[simp] theorem finish_feed_placed (s : State) : (finish s).feed.placed = s.feed.placed := by rw [(finish_keeps s).fields]
@[simp] theorem finish_feed_mask (s : State) : (finish s).feed.mask = s.feed.mask := by rw [(finish_keeps s).fields]
@[simp] theorem finish_feed_noticesLost (s : State) : (finish s).feed.noticesLost = s.feed.noticesLost := by rw [(finish_keeps s).fields]
@[simp] theorem finish_feed_sent (s : State) : (finish s).feed.sent = s.feed.sent := by rw [(finish_keeps s).fields]
@[simp] theorem finish_received (s : State) (c : Fin 4) : ((finish s).feed.credit.get c).received = (s.feed.credit.get c).received :=
  (finish_keeps s).received c
@[simp] theorem finish_announced (s : State) (c : Fin 4) : ((finish s).feed.credit.get c).announced = (s.feed.credit.get c).announced :=
  (finish_keeps s).announced c

/-- Everything a guarded command can answer. -/
theorem act_cases {s t : State} {can : Bool} {event : State → State} (h : act s can event = .next t) :
    (can = true ∧ s.resetHeld = false ∧ t = finish (event s)) ∨ ((can = false ∨ s.resetHeld = true) ∧ t = s) := by
  unfold act at h
  injection h with h
  subst h
  cases can <;> cases hr : s.resetHeld <;> simp

/-- A guarded command whose condition holds answers its event. -/
theorem act_of_can {s : State} {can : Bool} {event : State → State} (h : can = true) (hr : s.resetHeld = false) :
    act s can event = .next (finish (event s)) := by
  simp [act, h, hr]

/-- Everything a command on blocks can answer. -/
theorem actOn_cases {s t : State} {blocks : List Nat} {event : State → State} (h : actOn s blocks event = .next t) :
    (s.resetHeld = false ∧ t = finish (event s)) ∨ (s.resetHeld = true ∧ t = s) := by
  unfold actOn at h
  split at h
  · split at h
    · next hr => injection h with h; exact Or.inr ⟨hr, h.symm⟩
    · cases h
  · rcases act_cases h with ⟨-, hr, ht⟩ | ⟨hc | hr, ht⟩
    · exact Or.inl ⟨hr, ht⟩
    · cases hc
    · exact Or.inr ⟨hr, ht⟩

/-! ### Replies (R171) -/

@[simp] theorem placeReply_pending (tag code : Byte) (a : Answer) (s : State) : (placeReply tag code a s).pending = s.pending := rfl
@[simp] theorem placeReply_now (tag code : Byte) (a : Answer) (s : State) : (placeReply tag code a s).now = s.now := rfl
@[simp] theorem placeReply_pins (tag code : Byte) (a : Answer) (s : State) : (placeReply tag code a s).pins = s.pins := rfl
@[simp] theorem placeReply_inputs (tag code : Byte) (a : Answer) (s : State) : (placeReply tag code a s).inputs = s.inputs := rfl
@[simp] theorem placeReply_sampled (tag code : Byte) (a : Answer) (s : State) : (placeReply tag code a s).sampled = s.sampled := rfl
@[simp] theorem placeReply_resetHeld (tag code : Byte) (a : Answer) (s : State) : (placeReply tag code a s).resetHeld = s.resetHeld := rfl
@[simp] theorem placeReply_job (tag code : Byte) (a : Answer) (s : State) : (placeReply tag code a s).job = s.job := rfl
@[simp] theorem placeReply_geo (tag code : Byte) (a : Answer) (s : State) : (placeReply tag code a s).geo = s.geo := rfl
@[simp] theorem placeReply_motion (tag code : Byte) (a : Answer) (s : State) : (placeReply tag code a s).motion = s.motion := rfl
@[simp] theorem placeReply_place (tag code : Byte) (a : Answer) (s : State) : (placeReply tag code a s).place = s.place := rfl
@[simp] theorem placeReply_memory (tag code : Byte) (a : Answer) (s : State) : (placeReply tag code a s).memory = s.memory := rfl
@[simp] theorem placeReply_templates (tag code : Byte) (a : Answer) (s : State) : (placeReply tag code a s).templates = s.templates := rfl
@[simp] theorem placeReply_pool (tag code : Byte) (a : Answer) (s : State) : (placeReply tag code a s).pool = s.pool := rfl
@[simp] theorem placeReply_composer (tag code : Byte) (a : Answer) (s : State) : (placeReply tag code a s).composer = s.composer := rfl
@[simp] theorem placeReply_rings (tag code : Byte) (a : Answer) (s : State) : (placeReply tag code a s).rings = s.rings := rfl
@[simp] theorem placeReply_ports (tag code : Byte) (a : Answer) (s : State) : (placeReply tag code a s).ports = s.ports := rfl
@[simp] theorem placeReply_counters (tag code : Byte) (a : Answer) (s : State) : (placeReply tag code a s).counters = s.counters := rfl

/-- A reply joins the end of the reply queue, and the link changes in nothing else. -/
@[simp] theorem placeReply_feed (tag code : Byte) (a : Answer) (s : State) :
    (placeReply tag code a s).feed = { s.feed with
      replies := s.feed.replies ++ [(s.feed.placed, ⟨tag, code, a.result, a.body⟩)], placed := s.feed.placed + 1 } := rfl

/-! ### Rows' reports (R118 to R121) -/

/-- What a due or load-begun report does to a plane's ring. -/
theorem raiseFrontier_ring (p q : Plane) (serial : Nat) (s : State) :
    (raiseFrontier p serial s).rings.get q
      = if p = q then { s.rings.get q with frontier := max (s.rings.get q).frontier serial } else s.rings.get q := by
  simp only [raiseFrontier, State.updRing_rings, Table.get_upd]

/-- A release report changes the reporting row's release serial, its plane's retire point and entries, and on an
UNDERRUN the counters and the notices; nothing else. -/
theorem release_frame (h : Port) (k : RowIx) (p : Plane) (serial : Nat) (cause : ReleaseCause) (s : State) :
    (release h k p serial cause s).job = s.job ∧ (release h k p serial cause s).geo = s.geo
      ∧ (release h k p serial cause s).motion = s.motion ∧ (release h k p serial cause s).place = s.place
      ∧ (release h k p serial cause s).memory = s.memory ∧ (release h k p serial cause s).templates = s.templates
      ∧ (release h k p serial cause s).pool = s.pool ∧ (release h k p serial cause s).composer = s.composer
      ∧ (release h k p serial cause s).ports
          = (s.updRow h k (fun r => { r with release := max r.release serial })).ports
      ∧ ∀ q : Plane, q ≠ p → (release h k p serial cause s).rings.get q = s.rings.get q := by
  have step : ∀ u : State, (u = s.updRow h k (fun r => { r with release := max r.release serial })
        ∨ u = bump (.underruns p) (s.updRow h k (fun r => { r with release := max r.release serial }))) →
      ∀ t : State, (t = u ∨ t = reformRetire p u) →
        t.job = s.job ∧ t.geo = s.geo ∧ t.motion = s.motion ∧ t.place = s.place ∧ t.memory = s.memory
          ∧ t.templates = s.templates ∧ t.pool = s.pool ∧ t.composer = s.composer
          ∧ t.ports = (s.updRow h k (fun r => { r with release := max r.release serial })).ports
          ∧ ∀ q : Plane, q ≠ p → t.rings.get q = s.rings.get q := by
    intro u hu t ht
    rcases ht with rfl | rfl <;> rcases hu with rfl | rfl <;>
      simp only [reformRetire, bump_job, bump_geo, bump_motion, bump_place, bump_memory, bump_templates, bump_pool,
        bump_composer, bump_ports, bump_rings, State.updRing_job, State.updRing_geo, State.updRing_motion, State.updRing_place,
        State.updRing_memory, State.updRing_templates, State.updRing_pool, State.updRing_composer, State.updRing_ports,
        State.updRing_rings, State.updRow_job, State.updRow_geo, State.updRow_motion, State.updRow_place,
        State.updRow_memory, State.updRow_templates, State.updRow_pool, State.updRow_composer, State.updRow_ports,
        State.updRow_rings, true_and, and_true, implies_true] <;>
      exact fun q hq => Table.get_upd_ne _ _ (Ne.symm hq)
  refine step (if cause = .underrun then bump (.underruns p) (s.updRow h k (fun r => { r with release := max r.release serial }))
    else s.updRow h k (fun r => { r with release := max r.release serial })) ?_ _ ?_
  · split
    · exact Or.inr rfl
    · exact Or.inl rfl
  · exact (ite_eq_or_eq _ _ _).symm

/-- The least of a list is below or at each of its members. -/
theorem leastOf_le (x : Int) (ys : List Int) : leastOf x ys ≤ x ∧ ∀ y ∈ ys, leastOf x ys ≤ y := by
  induction ys generalizing x with
  | nil => simp [leastOf]
  | cons z zs ih =>
    obtain ⟨h1, h2⟩ := ih (min x z)
    simp only [leastOf]
    refine ⟨by omega, fun y hy => ?_⟩
    rcases List.mem_cons.mp hy with rfl | hy
    · omega
    · exact h2 y hy

/-- The least of a list is a member of it. -/
theorem leastOf_mem (x : Int) (ys : List Int) : leastOf x ys = x ∨ leastOf x ys ∈ ys := by
  induction ys generalizing x with
  | nil => simp [leastOf]
  | cons z zs ih =>
    simp only [leastOf]
    rcases ih (min x z) with h | h
    · rcases min_choice x z with hm | hm
      · left; rw [h, hm]
      · right; rw [h, hm]; simp
    · right; exact List.mem_cons_of_mem _ h

end Sys2Proof.Machine
end

