-- ==== Sys2Proof/Laws/Link.lean ====
section
/-! SUPPORT. Laws/Link.lean: what the end of an event does to the link in the terms of Safety.lean, and what the announcements of an
event leave alone. -/

namespace Sys2Proof.Machine

/-! ### The limits and the choice at the end of an event (R164, R174) -/

/-- Replacing the credits alone. -/
def State.withCredit (s : State) (k : Table 4 Credit) : State := s.setFeed { s.feed with credit := k }

@[simp] theorem withCredit_earns (s : State) (k : Table 4 Credit) (c : DataCh) : (s.withCredit k).feed.earns c = s.feed.earns c := rfl
@[simp] theorem withCredit_slots (s : State) (k : Table 4 Credit) (c : DataCh) : (s.withCredit k).slotsInUse c = s.slotsInUse c := rfl
@[simp] theorem withCredit_frames (s : State) (k : Table 4 Credit) (c : DataCh) :
    (s.withCredit k).framesAwaiting c = s.framesAwaiting c := rfl
@[simp] theorem withCredit_channels (s : State) (k : Table 4 Credit) : (s.withCredit k).feed.channels = s.feed.channels := rfl
theorem withCredit_twice (s : State) (k j : Table 4 Credit) : (s.withCredit k).withCredit j = s.withCredit j := rfl
@[simp] theorem withCredit_credit (s : State) (k : Table 4 Credit) : (s.withCredit k).feed.credit = k := rfl

/-- The limit of channel 0 after the request limit is brought up to date. -/
theorem refreshRequestLimit_credit (s : State) (c : Fin 4) :
    (refreshRequestLimit s).feed.credit.get c =
      if s.feed.link = .up ∧ c = 0 then
        { s.feed.credit.get c with
          limit := (s.feed.credit.get c).received + 8 - BitVec.ofNat 16 s.feed.requests.length }
      else s.feed.credit.get c := by
  unfold refreshRequestLimit
  by_cases h : s.feed.link = .up
  · simp only [h, if_true, State.setFeed_feed, Table.get_upd, true_and]
    by_cases hc : c = 0
    · subst hc; rfl
    · rw [if_neg (Ne.symm hc), if_neg hc]
  · simp [h]

theorem refreshRequestLimit_eq (s : State) :
    refreshRequestLimit s = s.withCredit (refreshRequestLimit s).feed.credit := by
  unfold refreshRequestLimit; split <;> rfl

theorem refreshDataLimit_eq (s : State) (c : DataCh) :
    refreshDataLimit s c = s.withCredit (refreshDataLimit s c).feed.credit := by
  unfold refreshDataLimit; split <;> rfl

/-- The limits after a data channel's limit is brought up to date. -/
theorem refreshDataLimit_credit (s : State) (c : DataCh) (i : Fin 4) :
    (refreshDataLimit s c).feed.credit.get i =
      if s.feed.earns c = true ∧ i = linkIx c then
        { s.feed.credit.get i with
          limit := (s.feed.credit.get i).received + BitVec.ofNat 16 (s.feed.channels.get c).quota
            - BitVec.ofNat 16 (s.slotsInUse c + s.framesAwaiting c) }
      else s.feed.credit.get i := by
  unfold refreshDataLimit
  by_cases h : s.feed.earns c = true
  · simp only [h, if_true, State.setFeed_feed, Table.get_upd, true_and]
    by_cases hc : i = linkIx c
    · subst hc; simp [limitFor]
    · rw [if_neg (Ne.symm hc), if_neg hc]
  · simp [h]

/-- The credits at the end of an event. -/
theorem finish_credit (s : State) :
    ((finish s).feed.credit.get 0 =
      if s.feed.link = .up then
        { s.feed.credit.get 0 with
          limit := (s.feed.credit.get 0).received + 8 - BitVec.ofNat 16 s.feed.requests.length }
      else s.feed.credit.get 0)
    ∧ ∀ c : DataCh, (finish s).feed.credit.get (linkIx c) =
      if s.feed.earns c = true then
        { s.feed.credit.get (linkIx c) with
          limit := (s.feed.credit.get (linkIx c)).received + BitVec.ofNat 16 (s.feed.channels.get c).quota
            - BitVec.ofNat 16 (s.slotsInUse c + s.framesAwaiting c) }
      else s.feed.credit.get (linkIx c) := by
  have hc : (finish s).feed.credit = (refreshLimits s).feed.credit := by
    unfold finish chooseSending
    split <;> rfl
  rw [hc]
  simp only [refreshLimits, allDataCh, List.foldl_cons, List.foldl_nil]
  obtain ⟨k0, h0⟩ : ∃ k, k = (refreshRequestLimit s).feed.credit := ⟨_, rfl⟩
  have e0 : ∀ i, k0.get i = _ := fun i => h0 ▸ refreshRequestLimit_credit s i
  rw [refreshRequestLimit_eq s, ← h0]
  obtain ⟨k1, h1⟩ : ∃ k, k = (refreshDataLimit (s.withCredit k0) 0).feed.credit := ⟨_, rfl⟩
  have e1 : ∀ i, k1.get i = _ := fun i => h1 ▸ refreshDataLimit_credit (s.withCredit k0) 0 i
  rw [refreshDataLimit_eq (s.withCredit k0) 0, ← h1, withCredit_twice]
  obtain ⟨k2, h2⟩ : ∃ k, k = (refreshDataLimit (s.withCredit k1) 1).feed.credit := ⟨_, rfl⟩
  have e2 : ∀ i, k2.get i = _ := fun i => h2 ▸ refreshDataLimit_credit (s.withCredit k1) 1 i
  rw [refreshDataLimit_eq (s.withCredit k1) 1, ← h2, withCredit_twice]
  simp only [refreshDataLimit_credit, withCredit_earns, withCredit_slots, withCredit_frames, withCredit_channels,
    withCredit_credit, e2, e1, e0]
  refine ⟨?_, fun c => ?_⟩
  · simp [linkIx]
  · have h3 : ∀ d : DataCh, d = 0 ∨ d = 1 ∨ d = 2 := by decide
    rcases h3 c with rfl | rfl | rfl <;> simp [linkIx, Fin.ext_iff]

/-- The transmitter's choice at the end of an event. -/
theorem finish_sending (s : State) :
    (finish s).feed.sending = if s.feed.link = .up ∧ s.feed.sending = none then (finish s).feed.nextSending else s.feed.sending := by
  have hk : (refreshLimits s).feed = { s.feed with credit := (refreshLimits s).feed.credit } := by
    have h1 : ∀ u : State, (refreshRequestLimit u).feed = { u.feed with credit := (refreshRequestLimit u).feed.credit } :=
      fun u => by rw [refreshRequestLimit_eq u]; rfl
    have h2 : ∀ (u : State) c, (refreshDataLimit u c).feed = { u.feed with credit := (refreshDataLimit u c).feed.credit } :=
      fun u c => by rw [refreshDataLimit_eq u c]; rfl
    simp only [refreshLimits, allDataCh, List.foldl_cons, List.foldl_nil]
    rw [h2, h2, h2, h1]
  unfold finish chooseSending
  rw [hk]
  by_cases h : s.feed.link = .up ∧ s.feed.sending = none
  · simp only [h, and_self, if_true, State.setFeed_feed]
    rfl
  · simp only [if_neg h]
    rw [hk]

/-- What the end of an event leaves of the link, from the link as the event left it. -/
theorem linkKept_finish {s u : State} (hl : u.feed.link = s.feed.link) (ht : u.feed.trainingStart = s.feed.trainingStart)
    (hi : u.feed.incoming = s.feed.incoming) (hm : u.feed.mask = s.feed.mask) (hs : u.feed.sent = s.feed.sent)
    (hc : u.feed.credit = s.feed.credit) (hd : u.feed.sending = s.feed.sending) : linkKept s (finish u) := by
  obtain ⟨h0, h1⟩ := finish_credit u
  refine ⟨by simp [hl], by simp [ht], by simp [hi], by simp [hm], by simp [hs], fun c => by simp [hc], ⟨?_, fun c => ?_⟩, ?_⟩
  · rw [h0]
    simp only [finish_feed_link, finish_feed_requests]
    split <;> simp_all
  · rw [h1]
    have e : (finish u).feed.earns c = u.feed.earns c := by simp [Feed.earns]
    have e2 : (finish u).slotsInUse c = u.slotsInUse c := by simp [State.slotsInUse]
    have e3 : (finish u).framesAwaiting c = u.framesAwaiting c := by simp [State.framesAwaiting]
    simp only [e, e2, e3, finish_feed_channels]
    split <;> simp_all
  · simp only [transmitterChose, finish_sending u, finish_feed_link]
    rw [hd]

theorem framesKept_finish {s u : State} (h : framesKept s u) : framesKept s (finish u) := by
  simpa [framesKept] using h

theorem repliesKept_finish {s u : State} (h : repliesKept s u) : repliesKept s (finish u) := by
  simpa [repliesKept] using h

theorem told_finish {signs : List Sign} {s u : State} (h : told signs s u) : told signs s (finish u) := by
  simpa [told] using h

theorem sameBlock_finish {s u : State} {b : Block} (hb : b ≠ .feed) (h : sameBlock s u b) : sameBlock s (finish u) b := by
  cases b <;> simp_all [sameBlock]

theorem unchangedBut_finish {bs : List Block} {s u : State} (hb : .feed ∈ bs) (h : unchangedBut bs s u) :
    unchangedBut bs s (finish u) :=
  fun b hm => sameBlock_finish (fun e => hm (e ▸ hb)) (h b hm)

/-! ### What announcements leave alone (R172, R175) -/

/-- Announcements change the counters and the link's queues alone. -/
structure TellKeeps (s t : State) : Prop where
  outside : t = { s with counters := t.counters, feed := t.feed }
  fields : t.feed = { s.feed with
    notices := t.feed.notices, placed := t.feed.placed, noticesLost := t.feed.noticesLost, replies := t.feed.replies }

theorem TellKeeps.refl (s : State) : TellKeeps s s := ⟨rfl, rfl⟩

theorem TellKeeps.trans {s t u : State} (h1 : TellKeeps s t) (h2 : TellKeeps t u) : TellKeeps s u where
  outside := by rw [h2.outside, h1.outside]
  fields := by rw [h2.fields, h1.fields]

theorem TellKeeps.ofNotice (n : Notice) (s : State) : TellKeeps s (placeNotice n s) := by
  unfold placeNotice
  split
  · split
    · exact ⟨rfl, rfl⟩
    · exact ⟨rfl, rfl⟩
  · exact .refl s

theorem TellKeeps.ofBump (c : CounterId) (s : State) : TellKeeps s (bump c s) := by
  unfold bump
  split
  · exact ⟨rfl, rfl⟩
  · exact TellKeeps.trans (t := s.setCounters (s.counters.increment c)) ⟨rfl, rfl⟩ (.ofNotice _ _)

theorem tell_keeps (signs : List Sign) (s : State) : TellKeeps s (tell signs s) := by
  induction signs generalizing s with
  | nil => exact .refl s
  | cons x xs ih =>
    cases x with
    | count c => exact (TellKeeps.ofBump c s).trans (ih _)
    | notice n => exact (TellKeeps.ofNotice n s).trans (ih _)
    | reply r =>
      refine TellKeeps.trans (t := { s with feed := { s.feed with
        replies := s.feed.replies ++ [(s.feed.placed, r)], placed := s.feed.placed + 1 } }) ⟨rfl, rfl⟩ (ih _)

/-- Announcements made in two runs. -/
theorem tell_append (xs ys : List Sign) (s : State) : tell (xs ++ ys) s = tell ys (tell xs s) := by
  induction xs generalizing s with
  | nil => rfl
  | cons x xs ih => cases x <;> exact ih _

/-! ### Announcements and answers (R171, R172, R175) -/

/-- An event that announced `signs` and touched nothing else of the link. -/
theorem announced_of {s u : State} {signs : List Sign} (hf : u.feed = (tell signs s).feed)
    (hc : u.counters = (tell signs s).counters) : announced signs s (finish u) := by
  have hk := (tell_keeps signs s).fields
  rw [← hf] at hk
  refine ⟨?_, ?_, ?_⟩
  · apply linkKept_finish <;> (rw [hk])
  · apply framesKept_finish; simp [framesKept]; rw [hk]; simp
  · apply told_finish; simp [told, hc, hf]

/-- When a request can be handled. -/
theorem canServe_of_ready {s : State} {r : Request} (h : ready s) (hw : waitsForWrite r = false) : s.canServe r = true := by
  simp [State.canServe, State.replyRoom, h.2, hw]

/-- A request that can be handled answers its event. -/
theorem request_next {s : State} {r : Request} (tag : Byte) (h : ready s) (hw : s.canServe r = true) :
    request tag r s = .next (finish (serve tag r s)) := act_of_can hw h.1

/-- The answer of an event that announced `signs` and touched nothing else of the link. -/
theorem answeredAfter_of {s u : State} {signs : List Sign} {tag code : Byte} {a : Answer} (hf : u.feed = (tell signs s).feed)
    (hc : u.counters = (tell signs s).counters) :
    answeredAfter signs s (finish (placeReply tag code a u)) tag code a.result a.body := by
  have hl : placeReply tag code a u = { u with feed := (tell (signs ++ [.reply ⟨tag, code, a.result, a.body⟩]) s).feed } := by
    rw [tell_append]
    simp [placeReply, State.setFeed, tell, hf]
  refine announced_of ?_ ?_
  · rw [hl]
  · rw [hl, tell_append]
    exact hc

/-- The answer of a request that changed nothing. -/
theorem refused_of {s u : State} {tag code : Byte} {r : Result} (hu : u = s) :
    refused s (finish (placeReply tag code (.plain r) u)) tag code r := by
  subst hu
  refine ⟨unchangedBut_finish (by simp) ?_, answeredAfter_of (a := .plain r) rfl rfl⟩
  intro b hb
  cases b <;> simp_all [sameBlock]

end Sys2Proof.Machine
end

