-- ==== Sys2Proof/Laws/Sparse.lean ====
section
/-! SUPPORT. Laws/Sparse.lean: reading a sparse store after a write, and the canonical form every operation keeps. -/

namespace Sys2Proof.Machine

variable {α : Type}

/-! ### The canonical form as a proposition -/

/-- Every key of a store is above `a`. -/
def keysAbove (a : Nat) (m : List (Nat × α)) : Prop := ∀ e ∈ m, a < e.1

theorem keysRise_cons {e : Nat × α} {m : List (Nat × α)} : keysRise (e :: m) = true ↔ keysAbove e.1 m ∧ keysRise m = true := by
  induction m generalizing e with
  | nil => simp [keysRise, keysAbove]
  | cons f m ih =>
    obtain ⟨k, v⟩ := e
    obtain ⟨k', v'⟩ := f
    simp only [keysRise, Bool.and_eq_true, decide_eq_true_eq]
    constructor
    · rintro ⟨h, hm⟩
      refine ⟨fun x hx => ?_, hm⟩
      rcases List.mem_cons.mp hx with rfl | hx
      · exact h
      · exact Nat.lt_trans h ((ih.mp hm).1 x hx)
    · rintro ⟨h, hm⟩
      exact ⟨h (k', v') (by simp), hm⟩

theorem keysRise_iff_pairwise (m : List (Nat × α)) : keysRise m = true ↔ m.Pairwise (fun a b => a.1 < b.1) := by
  induction m with
  | nil => simp [keysRise]
  | cons e m ih => rw [keysRise_cons, List.pairwise_cons, ih]; rfl

theorem keysRise_filter (p : Nat × α → Bool) {m : List (Nat × α)} (h : keysRise m = true) : keysRise (m.filter p) = true := by
  rw [keysRise_iff_pairwise] at *
  exact h.filter p

/-! ### Erase, insert, write -/

theorem mem_sparseErase {a : Nat} {e : Nat × α} {m : List (Nat × α)} : e ∈ sparseErase a m ↔ e ∈ m ∧ e.1 ≠ a := by
  induction m with
  | nil => simp [sparseErase]
  | cons f m ih =>
    obtain ⟨k, v⟩ := f
    simp only [sparseErase]
    split
    · next h =>
      rw [ih, List.mem_cons]
      constructor
      · rintro ⟨h1, h2⟩; exact ⟨Or.inr h1, h2⟩
      · rintro ⟨rfl | h1, h2⟩
        · exact absurd h h2
        · exact ⟨h1, h2⟩
    · next h =>
      rw [List.mem_cons, ih, List.mem_cons]
      constructor
      · rintro (rfl | ⟨h1, h2⟩)
        · exact ⟨Or.inl rfl, h⟩
        · exact ⟨Or.inr h1, h2⟩
      · rintro ⟨rfl | h1, h2⟩
        · exact Or.inl rfl
        · exact Or.inr ⟨h1, h2⟩

theorem keysRise_sparseErase (a : Nat) {m : List (Nat × α)} (h : keysRise m = true) : keysRise (sparseErase a m) = true := by
  induction m with
  | nil => simp [sparseErase, keysRise]
  | cons f m ih =>
    obtain ⟨k, v⟩ := f
    rw [keysRise_cons] at h
    simp only [sparseErase]
    split
    · exact ih h.2
    · rw [keysRise_cons]
      exact ⟨fun x hx => h.1 x (mem_sparseErase.mp hx).1, ih h.2⟩

theorem mem_sparseInsert {a : Nat} {x : α} {e : Nat × α} {m : List (Nat × α)} :
    e ∈ sparseInsert a x m ↔ e = (a, x) ∨ e ∈ m := by
  induction m with
  | nil => simp [sparseInsert]
  | cons f m ih =>
    obtain ⟨k, v⟩ := f
    simp only [sparseInsert]
    split
    · simp
    · simp only [List.mem_cons, ih]; tauto

theorem keysRise_sparseInsert (a : Nat) (x : α) {m : List (Nat × α)} (h : keysRise m = true) (ha : ∀ e ∈ m, e.1 ≠ a) :
    keysRise (sparseInsert a x m) = true := by
  induction m with
  | nil => simp [sparseInsert, keysRise]
  | cons f m ih =>
    obtain ⟨k, v⟩ := f
    have hk := keysRise_cons.mp h
    simp only [sparseInsert]
    split
    · next hlt =>
      rw [keysRise_cons]
      refine ⟨fun e he => ?_, h⟩
      rcases List.mem_cons.mp he with rfl | he
      · exact hlt
      · exact Nat.lt_trans hlt (hk.1 e he)
    · next hlt =>
      have hne : k ≠ a := ha (k, v) (by simp)
      rw [keysRise_cons]
      refine ⟨fun e he => ?_, ih hk.2 (fun e he => ha e (by simp [he]))⟩
      rcases mem_sparseInsert.mp he with rfl | he
      · show k < a; omega
      · exact hk.1 e he

/-- A write keeps the canonical form. -/
theorem sparseWf_sparseWrite [DecidableEq α] (d : α) (a : Nat) (x : α) {m : List (Nat × α)} (h : sparseWf d m = true) :
    sparseWf d (sparseWrite d m a x) = true := by
  simp only [sparseWf, Bool.and_eq_true, List.all_eq_true, bne_iff_ne] at *
  unfold sparseWrite
  split
  · exact ⟨keysRise_sparseErase a h.1, fun e he => h.2 e (mem_sparseErase.mp he).1⟩
  · next hx =>
    refine ⟨keysRise_sparseInsert a x (keysRise_sparseErase a h.1) (fun e he => (mem_sparseErase.mp he).2), fun e he => ?_⟩
    rcases mem_sparseInsert.mp he with rfl | he
    · exact hx
    · exact h.2 e (mem_sparseErase.mp he).1

/-- A run of writes keeps the canonical form. -/
theorem sparseWf_sparseWriteRun [DecidableEq α] (d : α) (xs : List α) (a : Nat) {m : List (Nat × α)}
    (h : sparseWf d m = true) : sparseWf d (sparseWriteRun d m a xs) = true := by
  induction xs generalizing a m with
  | nil => exact h
  | cons x xs ih => exact ih (a + 1) (sparseWf_sparseWrite d a x h)

theorem sparseWf_filter [DecidableEq α] (d : α) (p : Nat × α → Bool) {m : List (Nat × α)} (h : sparseWf d m = true) :
    sparseWf d (m.filter p) = true := by
  simp only [sparseWf, Bool.and_eq_true, List.all_eq_true, bne_iff_ne] at *
  exact ⟨keysRise_filter p h.1, fun e he => h.2 e (List.mem_of_mem_filter he)⟩

/-- A copy keeps the canonical form of the store it writes. -/
theorem sparseWf_sparseCopy [DecidableEq α] (d : α) (pick : Nat → Bool) (src : List (Nat × α)) {dst : List (Nat × α)}
    (h : sparseWf d dst = true) : sparseWf d (sparseCopy d pick src dst) = true := by
  unfold sparseCopy
  generalize src.filter (fun e => pick e.1) = l
  have h := sparseWf_filter d (fun e => !pick e.1) h
  generalize dst.filter (fun e => !pick e.1) = m at *
  induction l generalizing m with
  | nil => exact h
  | cons e l ih => exact ih _ (sparseWf_sparseWrite d e.1 e.2 h)

/-! ### Reading -/

theorem sparseRead_sparseErase (d : α) (m : List (Nat × α)) (a b : Nat) :
    sparseRead d (sparseErase a m) b = if b = a then d else sparseRead d m b := by
  induction m with
  | nil => simp [sparseErase, sparseRead]
  | cons f m ih =>
    obtain ⟨k, v⟩ := f
    simp only [sparseErase]
    split
    · next h =>
      subst h
      rw [ih]
      simp only [sparseRead]
      by_cases hb : b = k
      · simp [hb]
      · simp [hb, Ne.symm hb]
    · next h =>
      simp only [sparseRead, ih]
      by_cases hk : k = b
      · subst hk; simp [h]
      · simp [hk]

theorem sparseRead_sparseInsert (d : α) (m : List (Nat × α)) (a b : Nat) (x : α) (ha : ∀ e ∈ m, e.1 ≠ a) :
    sparseRead d (sparseInsert a x m) b = if b = a then x else sparseRead d m b := by
  induction m with
  | nil => simp only [sparseInsert, sparseRead, eq_comm]
  | cons f m ih =>
    obtain ⟨k, v⟩ := f
    have hk : k ≠ a := ha (k, v) (by simp)
    simp only [sparseInsert]
    split
    · simp only [sparseRead, eq_comm]
    · simp only [sparseRead, ih (fun e he => ha e (by simp [he]))]
      split
      · next h => subst h; simp [hk]
      · rfl

/-- A read after a write gives the value written at its key and what was there before at every other key. -/
theorem sparseRead_sparseWrite [DecidableEq α] (d : α) (m : List (Nat × α)) (a b : Nat) (x : α) :
    sparseRead d (sparseWrite d m a x) b = if b = a then x else sparseRead d m b := by
  unfold sparseWrite
  split
  · next h => rw [sparseRead_sparseErase]; split <;> simp_all
  · rw [sparseRead_sparseInsert _ _ _ _ _ (fun e he => (mem_sparseErase.mp he).2), sparseRead_sparseErase]
    split <;> simp_all

/-- A read after a run of writes gives the value of the run at its keys and what was there before elsewhere. -/
theorem sparseRead_sparseWriteRun [DecidableEq α] (d : α) (xs : List α) (m : List (Nat × α)) (a b : Nat) :
    sparseRead d (sparseWriteRun d m a xs) b
      = if a ≤ b ∧ b < a + xs.length then xs.getD (b - a) d else sparseRead d m b := by
  induction xs generalizing a m with
  | nil =>
    rw [if_neg (by simp only [List.length_nil]; omega)]
    rfl
  | cons x xs ih =>
    simp only [sparseWriteRun, ih, sparseRead_sparseWrite, List.length_cons]
    by_cases h1 : b = a
    · subst h1; simp
    · by_cases h2 : a + 1 ≤ b ∧ b < a + 1 + xs.length
      · rw [if_pos h2, if_pos (by omega)]
        obtain ⟨k, hk⟩ : ∃ k, b - a = k + 1 := ⟨b - a - 1, by omega⟩
        rw [hk, List.getD_cons_succ]
        congr 1
        omega
      · rw [if_neg h2, if_neg h1, if_neg (by omega)]

theorem sparseRead_filter (d : α) (p : Nat → Bool) (m : List (Nat × α)) (b : Nat) :
    sparseRead d (m.filter (fun e => p e.1)) b = if p b then sparseRead d m b else d := by
  induction m with
  | nil => simp [sparseRead]
  | cons f m ih =>
    obtain ⟨k, v⟩ := f
    by_cases hp : p k
    · simp only [List.filter_cons, hp, if_true, sparseRead, ih]
      by_cases hk : k = b
      · subst hk; simp [hp]
      · simp [hk]
    · simp only [List.filter_cons, hp, sparseRead]
      by_cases hk : k = b
      · subst hk; simp [hp] at ih ⊢; exact ih
      · simp [hk] at ih ⊢; exact ih

theorem sparseRead_of_not_mem (d : α) {m : List (Nat × α)} {b : Nat} (h : ∀ e ∈ m, e.1 ≠ b) : sparseRead d m b = d := by
  induction m with
  | nil => rfl
  | cons f m ih =>
    obtain ⟨k, v⟩ := f
    simp only [sparseRead]
    rw [if_neg (h (k, v) (by simp)), ih (fun e he => h e (by simp [he]))]

theorem sparseRead_foldl_write [DecidableEq α] (d : α) (l m : List (Nat × α)) (hl : keysRise l = true) (b : Nat) :
    sparseRead d (l.foldl (fun m e => sparseWrite d m e.1 e.2) m) b
      = if b ∈ l.map Prod.fst then sparseRead d l b else sparseRead d m b := by
  induction l generalizing m with
  | nil => simp
  | cons e l ih =>
    obtain ⟨k, v⟩ := e
    have hk := keysRise_cons.mp hl
    simp only [List.foldl_cons, ih _ hk.2, sparseRead_sparseWrite, List.map_cons, List.mem_cons, sparseRead]
    by_cases hb : b ∈ l.map Prod.fst
    · have hlt : k < b := by
        obtain ⟨e, he, rfl⟩ := List.mem_map.mp hb
        exact hk.1 e he
      rw [if_pos hb, if_pos (Or.inr hb), if_neg (by omega)]
    · rw [if_neg hb]
      by_cases hkb : b = k
      · subst hkb; simp
      · rw [if_neg hkb, if_neg (by tauto)]

/-- A read after a copy gives the source at the keys picked and the destination elsewhere. -/
theorem sparseRead_sparseCopy [DecidableEq α] (d : α) (pick : Nat → Bool) (src dst : List (Nat × α))
    (hs : keysRise src = true) (b : Nat) :
    sparseRead d (sparseCopy d pick src dst) b = if pick b then sparseRead d src b else sparseRead d dst b := by
  unfold sparseCopy
  rw [sparseRead_foldl_write d _ _ (keysRise_filter _ hs)]
  rw [sparseRead_filter d (fun a => !pick a), sparseRead_filter d pick]
  by_cases hp : pick b
  · simp only [hp, if_true]
    split
    · rfl
    · next hb =>
      rw [sparseRead_of_not_mem d (m := src)]
      · simp
      · intro e he hbe
        exact hb (List.mem_map.mpr ⟨e, by simp [he, hbe, hp], hbe⟩)
  · simp only [hp]
    rw [if_neg]
    · simp
    · intro hb
      obtain ⟨e, he, rfl⟩ := List.mem_map.mp hb
      simp [hp] at he

end Sys2Proof.Machine
end

