-- ==== Sys2Proof/Laws/Memory.lean ====
section
/-! SUPPORT. Laws/Memory.lean: the frame memory's canonical form under each of its operations, and reading it after a block write. -/

namespace Sys2Proof.Machine

/-! ### The cells of a run of bytes -/

theorem mem_cellsOf {a : Nat} {bytes : List Byte} {c : Host.Cell} (h : c ∈ cellsOf a bytes) :
    a ≤ c.1 ∧ c.1 < a + bytes.length ∧ c.2 ≠ unlistedByte := by
  induction bytes generalizing a with
  | nil => simp [cellsOf] at h
  | cons b bs ih =>
    simp only [cellsOf] at h
    simp only [List.length_cons]
    split at h
    · obtain ⟨h1, h2, h3⟩ := ih h
      exact ⟨by omega, by omega, h3⟩
    · next hb =>
      rcases List.mem_cons.mp h with rfl | h
      · exact ⟨Nat.le_refl a, by show a < a + (bs.length + 1); omega, hb⟩
      · obtain ⟨h1, h2, h3⟩ := ih h
        exact ⟨by omega, by omega, h3⟩

theorem keysRise_cellsOf (a : Nat) (bytes : List Byte) : keysRise (cellsOf a bytes) = true := by
  induction bytes generalizing a with
  | nil => rfl
  | cons b bs ih =>
    simp only [cellsOf]
    split
    · exact ih (a + 1)
    · rw [keysRise_cons]
      exact ⟨fun e he => (mem_cellsOf he).1, ih (a + 1)⟩

theorem sparseRead_cellsOf (a b : Nat) (bytes : List Byte) :
    sparseRead unlistedByte (cellsOf a bytes) b
      = if a ≤ b then bytes.getD (b - a) unlistedByte else unlistedByte := by
  induction bytes generalizing a with
  | nil => simp [cellsOf, sparseRead]
  | cons x xs ih =>
    have key : sparseRead unlistedByte (cellsOf a (x :: xs)) b
        = if a = b then x else sparseRead unlistedByte (cellsOf (a + 1) xs) b := by
      simp only [cellsOf]
      split
      · next hx =>
        split
        · next hab =>
          rw [ih, if_neg (by omega), hx]
        · rfl
      · rfl
    rw [key, ih]
    by_cases h1 : a = b
    · subst h1; simp
    · rw [if_neg h1]
      by_cases h2 : a ≤ b
      · rw [if_pos (show a + 1 ≤ b by omega), if_pos h2]
        obtain ⟨k, hk⟩ : ∃ k, b - a = k + 1 := ⟨b - a - 1, by omega⟩
        rw [hk, List.getD_cons_succ]
        congr 1
        omega
      · rw [if_neg (by omega), if_neg h2]

theorem sparseRead_append {α : Type} (d : α) (l r : List (Nat × α)) (b : Nat) :
    sparseRead d (l ++ r) b = if b ∈ l.map Prod.fst then sparseRead d l b else sparseRead d r b := by
  induction l with
  | nil => simp
  | cons e l ih =>
    obtain ⟨k, v⟩ := e
    simp only [List.cons_append, sparseRead, List.map_cons, List.mem_cons]
    by_cases hk : k = b
    · simp [hk]
    · have : ¬ b = k := fun h => hk h.symm
      rw [if_neg hk, if_neg hk, ih]
      simp only [this, false_or]

/-! ### Writing a block -/

/-- A block write keeps the canonical form of the cells. -/
theorem FrameMemory.wf_writeBlock (m : FrameMemory) (block : Nat) (bytes : List Byte) (h : m.wf = true) :
    (m.writeBlock block bytes).wf = true := by
  have hw : sparseWf unlistedByte m.cells = true := h
  simp only [sparseWf, Bool.and_eq_true, List.all_eq_true, bne_iff_ne] at hw
  have len : (bytes.take Config.blockBytes).length ≤ Config.blockBytes := by simp
  unfold FrameMemory.wf FrameMemory.writeBlock sparseWf
  simp only [Bool.and_eq_true, List.all_eq_true, bne_iff_ne]
  constructor
  · rw [keysRise_iff_pairwise]
    have hp := (keysRise_iff_pairwise _).mp hw.1
    rw [List.pairwise_append, List.pairwise_append]
    refine ⟨⟨hp.filter _, (keysRise_iff_pairwise _).mp (keysRise_cellsOf _ _), ?_⟩, hp.filter _, ?_⟩
    · intro x hx y hy
      have := (mem_cellsOf hy).1
      simp only [List.mem_filter, decide_eq_true_eq] at hx
      omega
    · intro x hx y hy
      simp only [List.mem_filter, decide_eq_true_eq] at hy
      rcases List.mem_append.mp hx with hx | hx
      · simp only [List.mem_filter, decide_eq_true_eq] at hx; omega
      · have := (mem_cellsOf hx).2.1; omega
  · intro e he
    rcases List.mem_append.mp he with he | he
    · rcases List.mem_append.mp he with he | he
      · exact hw.2 e (List.mem_of_mem_filter he)
      · exact (mem_cellsOf he).2.2
    · exact hw.2 e (List.mem_of_mem_filter he)

/-- A byte read after a block write: inside the block the bytes written, 0 beyond them; elsewhere what was there before. -/
theorem FrameMemory.byte_writeBlock (m : FrameMemory) (block : Nat) (bytes : List Byte) (a : Nat) :
    (m.writeBlock block bytes).byte a
      = if block * Config.blockBytes ≤ a ∧ a < block * Config.blockBytes + Config.blockBytes then
          (bytes.take Config.blockBytes).getD (a - block * Config.blockBytes) unlistedByte
        else m.byte a := by
  unfold FrameMemory.byte FrameMemory.writeBlock
  simp only
  generalize hB : block * Config.blockBytes = B
  rw [sparseRead_append, sparseRead_append]
  rw [sparseRead_filter unlistedByte (fun k => decide (k < B)), sparseRead_filter unlistedByte (fun k => decide (B + Config.blockBytes ≤ k)),
    sparseRead_cellsOf]
  have hlow : a ∈ (m.cells.filter (fun c => decide (c.1 < B))).map Prod.fst → a < B := by
    intro h
    obtain ⟨e, he, rfl⟩ := List.mem_map.mp h
    simpa using (List.mem_filter.mp he).2
  have hmid : a ∈ (cellsOf B (bytes.take Config.blockBytes)).map Prod.fst → B ≤ a ∧ a < B + Config.blockBytes := by
    intro h
    obtain ⟨e, he, rfl⟩ := List.mem_map.mp h
    have := mem_cellsOf he
    have : (bytes.take Config.blockBytes).length ≤ Config.blockBytes := by simp
    omega
  have hnone : ∀ l : List Host.Cell, a ∉ l.map Prod.fst → sparseRead unlistedByte l a = unlistedByte := fun l hl =>
    sparseRead_of_not_mem _ (fun e he hea => hl (List.mem_map.mpr ⟨e, he, hea⟩))
  simp only [List.map_append, List.mem_append]
  by_cases hin : B ≤ a ∧ a < B + Config.blockBytes
  · rw [if_pos hin]
    have h1 : ¬ a ∈ (m.cells.filter (fun c => decide (c.1 < B))).map Prod.fst := fun h => by have := hlow h; omega
    by_cases h2 : a ∈ (cellsOf B (bytes.take Config.blockBytes)).map Prod.fst
    · rw [if_pos (Or.inr h2), if_neg h1, if_pos hin.1]
    · rw [if_neg (by tauto), if_neg (by simpa using hin.2)]
      have := hnone _ h2
      rw [sparseRead_cellsOf, if_pos hin.1] at this
      exact this.symm
  · rw [if_neg hin]
    have h2 : ¬ a ∈ (cellsOf B (bytes.take Config.blockBytes)).map Prod.fst := fun h => hin (hmid h)
    by_cases h1 : a ∈ (m.cells.filter (fun c => decide (c.1 < B))).map Prod.fst
    · rw [if_pos (Or.inl h1), if_pos h1, if_pos (by simpa using hlow h1)]
    · rw [if_neg (by tauto)]
      by_cases ha : a < B
      · have := hnone _ h1
        rw [sparseRead_filter unlistedByte (fun k => decide (k < B)), if_pos (by simpa using ha)] at this
        rw [if_neg (by simp; omega), this]
      · rw [if_pos (by simp; omega)]

@[simp] theorem FrameMemory.writeBlock_plan (m : FrameMemory) (block : Nat) (bytes : List Byte) :
    (m.writeBlock block bytes).plan = m.plan := rfl

/-- A block write keeps the list of words in error in order, and leaves no error in the block (R77). -/
theorem FrameMemory.errors_writeBlock (m : FrameMemory) (block : Nat) (bytes : List Byte) (h : keysRise m.errors = true) :
    keysRise (m.writeBlock block bytes).errors = true
      ∧ ∀ e ∈ (m.writeBlock block bytes).errors, wordInBlock block e.1 = false := by
  refine ⟨keysRise_filter _ h, fun e he => ?_⟩
  simpa using (List.mem_filter.mp he).2

/-- A word that falls into error keeps the cells, the plan and the order of the list of words in error. -/
theorem FrameMemory.upset_keeps (m : FrameMemory) (e : Nat × WordError) (h : keysRise m.errors = true) :
    (m.upset e).cells = m.cells ∧ (m.upset e).plan = m.plan ∧ keysRise (m.upset e).errors = true := by
  unfold FrameMemory.upset
  split
  · exact ⟨rfl, rfl, keysRise_sparseInsert _ _ (keysRise_sparseErase _ h) (fun x hx => (mem_sparseErase.mp hx).2)⟩
  · exact ⟨rfl, rfl, h⟩

/-- The frame memory after reset is in canonical form. -/
theorem reset_memory_wf : State.reset.memory.wf = true := rfl

end Sys2Proof.Machine
end

