-- ==== Sys2Proof/Laws/Operands.lean ====
section
/-! SUPPORT. Laws/Operands.lean: when a field of a request stands for a value, and for which (section 11.3, R180). -/

namespace Sys2Proof.Machine

theorem numberBelow_eq_some {n : Nat} {b : Byte} {i : Fin n} : numberBelow n b = some i ↔ b.toNat = i.val := by
  unfold numberBelow
  split
  · simp [Fin.ext_iff]
  · next h => simp only [reduceCtorEq, false_iff]; intro e; exact h (e ▸ i.isLt)

theorem numberBelow_eq_none {n : Nat} {b : Byte} : numberBelow n b = none ↔ n ≤ b.toNat := by
  unfold numberBelow
  split <;> simp <;> omega

theorem planeNumber_eq_some {b : Byte} {p : Plane} : planeNumber b = some p ↔ b.toNat = p.val := numberBelow_eq_some
theorem planeNumber_eq_none {b : Byte} : planeNumber b = none ↔ 5 < b.toNat := numberBelow_eq_none
theorem portNumber_eq_some {b : Byte} {h : Port} : portNumber b = some h ↔ b.toNat = h.val := numberBelow_eq_some
theorem portNumber_eq_none {b : Byte} : portNumber b = none ↔ 11 < b.toNat := numberBelow_eq_none
theorem templateNumber_eq_some {b : Byte} {t : TemplateIx} : templateNumber b = some t ↔ b.toNat = t.val := numberBelow_eq_some
theorem templateNumber_eq_none {b : Byte} : templateNumber b = none ↔ 15 < b.toNat := numberBelow_eq_none
theorem seamNumber_eq_some {b : Byte} {e : SeamIx} : seamNumber b = some e ↔ b.toNat = e.val := numberBelow_eq_some
theorem seamNumber_eq_none {b : Byte} : seamNumber b = none ↔ 15 < b.toNat := numberBelow_eq_none
theorem pdNumber_eq_some {b : Byte} {i : PdIx} : pdNumber b = some i ↔ b.toNat = i.val := numberBelow_eq_some
theorem pdNumber_eq_none {b : Byte} : pdNumber b = none ↔ 3 < b.toNat := numberBelow_eq_none

theorem channelNumber_eq_some {b : Byte} {c : DataCh} : channelNumber b = some c ↔ b.toNat = c.val + 1 := by
  unfold channelNumber
  split
  · simp only [Option.some.injEq, Fin.ext_iff]; omega
  · simp only [reduceCtorEq, false_iff]; omega

theorem channelNumber_eq_none {b : Byte} : channelNumber b = none ↔ b.toNat = 0 ∨ 3 < b.toNat := by
  unfold channelNumber
  split <;> simp <;> omega

/-- A field that may be NONE stands for no value exactly when it is not FFh and holds no number. -/
theorem orNone_eq_none {α : Type} {read : Byte → Option α} {b : Byte} : orNone read b = none ↔ b ≠ 0xFF ∧ read b = none := by
  unfold orNone
  split <;> simp_all

theorem orNone_eq_some {α : Type} {read : Byte → Option α} {b : Byte} {x : Option α} :
    orNone read b = some x ↔ (b = 0xFF ∧ x = none) ∨ (b ≠ 0xFF ∧ ∃ y, read b = some y ∧ x = some y) := by
  unfold orNone
  split <;> simp_all [eq_comm]

theorem ff_toNat {b : Byte} : b = 0xFF ↔ b.toNat = 255 := by
  constructor
  · rintro rfl; rfl
  · intro h; exact BitVec.eq_of_toNat_eq (by simpa using h)

theorem policyOf_eq_none {b : Byte} : policyOf b = none ↔ 1 < b.toNat := by
  revert b
  decide +kernel

theorem policyOf_eq_some {b : Byte} {y : FaultPolicy} : policyOf b = some y ↔ b.toNat ≤ 1 ∧ y = if b = 0 then .goOn else .halt := by
  revert b
  cases y <;> decide +kernel

theorem senseOf_eq_none {b : Byte} : senseOf b = none ↔ 1 < b.toNat := by
  revert b
  decide +kernel

theorem senseOf_eq_some {b : Byte} {e : Sense} : senseOf b = some e ↔ b.toNat ≤ 1 ∧ e = if b = 0 then .aLeads else .bLeads := by
  revert b
  cases e <;> decide +kernel

theorem edgeOf_eq_none {b : Byte} : edgeOf b = none ↔ 3 < b.toNat := by
  revert b
  decide +kernel

theorem edgeOf_eq_some {b : Byte} {e : EdgeSelect} :
    edgeOf b = some e ↔ b.toNat ≤ 3 ∧ e = [EdgeSelect.none, .rising, .falling, .both].getD b.toNat .none := by
  revert b
  cases e <;> decide +kernel

theorem keepWetModeOf_eq_none {b : Byte} : keepWetModeOf b = none ↔ 1 < b.toNat := by
  revert b
  decide +kernel

theorem patchedOf_eq_none {b : Byte} : patchedOf b = none ↔ 1 < b.toNat := by
  revert b
  decide +kernel

theorem sourceOf_eq_none {b : Byte} : sourceOf b = none ↔ 4 < b.toNat := by
  revert b
  decide +kernel

theorem patchModeOf_eq_none {b : Byte} : patchModeOf b = none ↔ 1 < b.toNat := by
  revert b
  decide +kernel

theorem ratioOf_eq_none {n m : BitVec 24} : ratioOf n m = none ↔ m.toNat = 0 ∨ n.toNat = 0 ∨ m.toNat < n.toNat := by
  unfold ratioOf
  split <;> simp <;> omega

theorem ratioOf_eq_some {n m : BitVec 24} {r : Ratio} :
    ratioOf n m = some r ↔ (1 ≤ n.toNat ∧ n.toNat ≤ m.toNat) ∧ r = ⟨n.toNat, m.toNat⟩ := by
  unfold ratioOf
  split <;> simp_all [eq_comm]

theorem planeSetOf_eq_none {b : Byte} : planeSetOf b = none ↔ b.toNat = 0 ∨ 63 < b.toNat := by
  unfold planeSetOf
  split <;> simp <;> omega

theorem planeRecOf_eq_none {w : BitVec 16} {a b c k : Byte} :
    planeRecOf w a b c k = none
      ↔ 16384 < w.toNat ∨ 3 < a.toNat ∨ 3 < b.toNat ∨ 3 < c.toNat ∨ 3 < k.toNat := by
  unfold planeRecOf
  by_cases h : w.toNat ≤ Config.maxWidth ∧ a.toNat ≤ 3 ∧ b.toNat ≤ 3 ∧ c.toNat ≤ 3 ∧ k.toNat ≤ 3
  · rw [if_pos h]; simp only [Config.maxWidth] at h; simp only [reduceCtorEq, false_iff]; omega
  · rw [if_neg h]; simp only [Config.maxWidth] at h; simp only [true_iff]; omega

theorem planeRecOf_eq_some {w : BitVec 16} {a b c k : Byte} {r : PlaneRec} (h : planeRecOf w a b c k = some r) :
    r = ⟨w.toNat, a.toNat, b.toNat, c.toNat, k.toNat⟩ := by
  unfold planeRecOf at h
  split at h <;> simp_all

theorem seamRecOf_eq_none {l r sh : Byte} {pat : BitVec 64} :
    seamRecOf l r sh pat = none ↔ (11 < l.toNat ∧ l.toNat ≠ 255) ∨ 11 < r.toNat ∨ 63 < sh.toNat := by
  unfold seamRecOf
  cases hl : orNone portNumber l with
  | none =>
    have := orNone_eq_none.mp hl
    simp only [ne_eq, ff_toNat, portNumber_eq_none] at this
    simp only [true_iff]; omega
  | some x =>
    have h1 : ¬ (11 < l.toNat ∧ l.toNat ≠ 255) := by
      intro ⟨a, b⟩
      have : orNone portNumber l = none := orNone_eq_none.mpr ⟨fun e => b (ff_toNat.mp e), portNumber_eq_none.mpr a⟩
      simp [this] at hl
    cases hr : portNumber r with
    | none =>
      have := portNumber_eq_none.mp hr
      simp only [true_iff]; omega
    | some y =>
      have h2 : ¬ 11 < r.toNat := fun a => by simp [portNumber_eq_none.mpr a] at hr
      simp only
      split <;> simp <;> omega

theorem planOf_eq_none {sl d0 d1 d2 d3 d4 d5 : BitVec 16} :
    planOf sl d0 d1 d2 d3 d4 d5 = none ↔ sl.toNat = 0 ∨ d0.toNat = 1 ∨ d1.toNat = 1 ∨ d2.toNat = 1 ∨ d3.toNat = 1
      ∨ d4.toNat = 1 ∨ d5.toNat = 1 := by
  unfold planOf
  split
  · next h => simp [depthAllowed] at h ⊢; omega
  · next h => simp [depthAllowed] at h ⊢; omega

theorem headRecOf_eq_none {p : Byte} {c : BitVec 16} {r : Byte} {n : BitVec 16} {d f : Table 4 Nat} {w : BitVec 16} {y : Byte} :
    headRecOf p c r n d f w y = none ↔ (5 < p.toNat ∧ p.toNat ≠ 255) ∨ 16383 < c.toNat ∨ r.toNat = 0 ∨ 4 < r.toNat
      ∨ n.toNat < 8 ∨ 768 < n.toNat ∨ n.toNat % 8 ≠ 0 ∨ (∃ k : RowIx, k.val < r.toNat ∧ 60000 < d.get k) ∨ w.toNat < 100
      ∨ 1 < y.toNat := by
  unfold headRecOf
  cases hl : orNone planeNumber p with
  | none =>
    have := orNone_eq_none.mp hl
    simp only [ne_eq, ff_toNat, planeNumber_eq_none] at this
    simp only [true_iff]; exact Or.inl ⟨this.2, this.1⟩
  | some x =>
    have h1 : ¬ (5 < p.toNat ∧ p.toNat ≠ 255) := by
      intro ⟨a, b⟩
      have : orNone planeNumber p = none := orNone_eq_none.mpr ⟨fun e => b (ff_toNat.mp e), planeNumber_eq_none.mpr a⟩
      simp [this] at hl
    cases hr : policyOf y with
    | none =>
      have := policyOf_eq_none.mp hr
      simp only [true_iff]; simp [this]
    | some z =>
      have h2 : ¬ 1 < y.toNat := fun a => by simp [policyOf_eq_none.mpr a] at hr
      have h3 : (∀ k : RowIx, k.val < r.toNat → d.get k ≤ 60000) ↔ ¬ ∃ k : RowIx, k.val < r.toNat ∧ 60000 < d.get k := by
        push Not; rfl
      simp only [h3, Config.maxWidth, Config.rowNozzles]
      by_cases h4 : ∃ k : RowIx, k.val < r.toNat ∧ 60000 < d.get k
      · simp [h4]
      · simp only [h4, not_false_eq_true, true_and]
        split <;> simp <;> omega

end Sys2Proof.Machine
end

