-- ==== Sys2Proof/Tests/Slice0.lean ====
section
/-! SUPPORT. Tests/Slice0.lean: ill-formed terms refused, request payloads read, one step of each command on a small state, and for every
statement with hypotheses a state and operands that meet them. Expected values are worked by hand from the rules named. -/

namespace Sys2Proof.Tests

open Sys2Proof Sys2Proof.Machine

-- One theorem at a time: the kernel's evaluations would else each hold a thread of their own.
set_option Elab.async false

/-! ### Well-formedness and payloads -/

/-- A status list one longer than a payload of 775 bytes carries is refused (R180). -/
theorem test_statuses_too_long :
    (Instr.setNozzles 0 0 0 0 0 (List.replicate 769 0)).wellFormed = false
      ∧ (Instr.setNozzles 0 0 0 0 0 (List.replicate 768 0)).wellFormed = true := by decide +kernel
/-- The same test on a request. -/
theorem test_request_statuses_too_long :
    (Request.setNozzles 0 0 0 0 (List.replicate 769 0)).wellFormed = false ∧ Request.startJob.wellFormed = true := by decide +kernel
/-- A payload of 4,113 bytes is refused and one of 4,112 is not (R162). -/
theorem test_payload_too_long :
    (Instr.frameReceived (List.replicate 4113 0) 0).wellFormed = false
      ∧ (Instr.frameReceived (List.replicate 4112 0) 0).wellFormed = true := by decide +kernel
/-- No row of the table carries bits. -/
theorem test_no_word_spells_a_command : decodeTableWord 8 1 = none ∧ State.reset.withFetchWord 8 1 = State.reset := by decide

/-- Set Plane, 8 bytes of section 11.3: plane 2, width 4660 (1234h), additions 1 2 3, weak cap 0. -/
theorem test_decode_set_plane :
    decodeRequest [0x03, 0x02, 0x34, 0x12, 0x01, 0x02, 0x03, 0x00] = .request (.setPlane 2 0x1234 1 2 3 0) := by decide
/-- Set Head, 23 bytes: port 11, plane NONE, first 1, rows 4, nozzles 768, D 1 2 3 4, f 5 6 7 8, window 100, policy 1. -/
theorem test_decode_set_head :
    decodeRequest [0x04, 0x0B, 0xFF, 0x01, 0x00, 0x04, 0x00, 0x03, 0x01, 0x00, 0x02, 0x00, 0x03, 0x00, 0x04, 0x00,
        0x05, 0x06, 0x07, 0x08, 0x64, 0x00, 0x01]
      = .request (.setHead 11 0xFF 1 4 768 1 2 3 4 5 6 7 8 100 1) := by decide
/-- Set Seam, 13 bytes, with an 8-byte pattern. -/
theorem test_decode_set_seam :
    decodeRequest [0x05, 0x0F, 0x00, 0x01, 0x3F, 0x88, 0x77, 0x66, 0x55, 0x44, 0x33, 0x22, 0x11]
      = .request (.setSeam 15 0 1 63 0x1122334455667788) := by decide
/-- Set Motion, 11 bytes: 3-byte N and M. -/
theorem test_decode_set_motion :
    decodeRequest [0x09, 0x01, 0x20, 0x40, 0x00, 0x01, 0x00, 0x00, 0x56, 0x34, 0x12]
      = .request (.setMotion 1 0x20 64 1 0x123456) := by decide
/-- Queue Page, 12 bytes. -/
theorem test_decode_queue_page :
    decodeRequest [0x10, 0xFF, 0x02, 0x00, 0x03, 0x00, 0x04, 0x00, 0x05, 0x00, 0x04, 0x01]
      = .request (.queuePage 0xFF 2 3 4 5 4 1) := by decide
/-- Mark, 7 bytes: a 4-byte copy sequence. -/
theorem test_decode_mark :
    decodeRequest [0x11, 0x78, 0x56, 0x34, 0x12, 0x10, 0x00] = .request (.mark 0x12345678 16) := by decide
/-- R171 tests 2 and 3: an empty payload, codes 0 and 19h, and a wrong length are turned away by name. -/
theorem test_decode_rejects :
    decodeRequest [] = .empty ∧ decodeRequest [0x00] = .unknown 0 ∧ decodeRequest [0x19] = .unknown 0x19
      ∧ decodeRequest [0x01, 0x00] = .length 0x01 ∧ decodeRequest [0x06, 0, 0, 0, 0, 0] = .length 0x06 := by decide
/-- Read Nozzles is encoded as section 11.3 lays it out. -/
theorem test_encode_read_nozzles : encodeRequest (.readNozzles 1 2 0x0304 0x0506) = [0x07, 1, 2, 4, 3, 6, 5] := by decide

/-- The header check of the digits 1 to 9 is the known CRC-8 check value of polynomial 07h (R178). -/
theorem test_crc8_check_value : crc8 [0x31, 0x32, 0x33, 0x34, 0x35, 0x36, 0x37, 0x38, 0x39] = 0xF4 := by decide +kernel
/-- The payload check of the digits 1 to 9 is the known CRC-32 check value (R178). -/
theorem test_crc32_check_value :
    crc32 [0x31, 0x32, 0x33, 0x34, 0x35, 0x36, 0x37, 0x38, 0x39] = 0xCBF43926 := by decide +kernel

/-! ### Small states -/

/-- The state a command leaves. -/
def after (c : Instr) (s : State) : State := match exec c s with | .next t => t | _ => s

/-- The state a step leaves. -/
def stepped (s : State) : State := match step s with | .next t => t | _ => s

/-- IDLE with plane 0 of 16 columns under head 0 of one row of 16 nozzles, a plan of 2 slots and rings of 4, and the ratio 1 : 1. -/
def idlePart : State :=
  { State.reset with
    geo := { Geometry.reset with
      planes := Geometry.reset.planes.put 0 ⟨16, 1, 2, 3, 1⟩
      heads := Geometry.reset.heads.put 0 ⟨some 0, 0, 1, 16, .all 4 0, .all 4 0, 100, .halt⟩ }
    ports := State.reset.ports.put 0 { HeadPort.reset with state := .ready }
    memory := ⟨[], [], some ⟨2, .all 6 4⟩⟩
    motion := { Motion.reset with ratio := some ⟨1, 1⟩ } }

/-- A page of one copy of 4 lines placed continuously. -/
def page : PageEntry := ⟨0, 1, 0, 4, 0, 0, .continuous, none, true⟩

/-- A job in RUNNING on `idlePart` with that page queued and placed at 1. -/
def jobPart : State :=
  { idlePart with
    job := ⟨.running, .none⟩
    place := { PlacementUnit.reset with list := [⟨0, 1, 4, 0, 0⟩], nextSequence := 1, floor := 5 }
    composer := ⟨[page], 1, 4, 0, 0, [⟨0, 4, 0⟩], none⟩ }

/-- The link UP with nothing being sent. -/
def linked (s : State) : State := { s with feed := { s.feed with link := .up } }

/-- Row 0 of port 0 replaced, with the port's arbiter queue. -/
def withRow (r : Row) (arbiter : List RowIx) (s : State) : State :=
  s.updPort 0 (fun p => { p with rows := p.rows.put 0 r, arbiter := arbiter })

/-- The encoder inputs as given, with the last pair their levels. -/
def withInputs (a b : InputFilter) (s : State) : State :=
  s.setMotion { s.motion with inputA := a, inputB := b, lastPair := (a.level, b.level) }

/-- A filter at the low level whose hold has reached the setting. -/
def rising : InputFilter := ⟨false, some 0, true⟩

/-- A filter at the low level with no hold. -/
def low : InputFilter := ⟨false, none, false⟩

/-- A state with channel 1 in a channel state. -/
def channelIn (st : ChannelState) (s : State) : State :=
  s.setFeed { s.feed with channels := s.feed.channels.put 0 ⟨st, 1, 1⟩ }

/-- Port 0 with a second row that joined the arbiter queue at tick 0, and row 0 about to fire. -/
def twoRows : State :=
  (jobPart.setGeo { jobPart.geo with heads := jobPart.geo.heads.put 0 ⟨some 0, 0, 2, 8, .all 4 0, .all 4 0, 100, .halt⟩ }).updPort 0
    (fun p => { p with
      rows := (p.rows.put 0 { Row.reset with load := .loaded, line := some ⟨0, 0⟩, due := some 0 }).put 1
        { Row.reset with load := .queued, line := some ⟨0, 0⟩ }, arbiter := [1] })

/-! ### One step of each command -/

/-- R181: the record begins 44h 18h (6212) and is 24 bytes. -/
theorem test_identify :
    (after (.identify 9) State.reset).feed.replies.map (fun r => (r.2.tag, r.2.code, r.2.body.length, r.2.body.take 2))
      = [(9, 1, 24, [0x44, 0x18])] := by decide
/-- R182: option 0 clears the announced flags and keeps the counts. -/
theorem test_status_report :
    (let t := after (.statusReport 9 0) (bump .earlyTriggers State.reset);
      (t.countOf .earlyTriggers, t.isAnnounced .earlyTriggers)) = (1, false) := by decide +kernel
/-- R96, section 11.7: the slot of an accepted patch still being written is held: offset 35 carries 1. -/
theorem test_status_report_held : field (jobPart.setPool ⟨[], some ⟨⟨0, 0, 3, 0, 4, .replace, 1, 0⟩, []⟩⟩).reportRecord 35 2 = 1 := by
  decide +kernel
/-- R2: the record is stored. -/
theorem test_set_plane : (after (.setPlane 9 5 16384 1 2 3 0) State.reset).geo.planes.get 5 = ⟨16384, 1, 2, 3, 0⟩ := by decide
/-- R4: the port becomes READY and the fields of a row the head lacks are stored as 0. -/
theorem test_set_head :
    (let t := after (.setHead 9 11 0 0 1 8 7 60001 0 0 1 2 3 4 100 0) State.reset;
      ((t.ports.get 11).state, (t.geo.heads.get 11).d.get 0, (t.geo.heads.get 11).d.get 1, (t.geo.heads.get 11).f.get 1))
      = (.ready, 7, 0, 0) := by decide
/-- R6: NONE empties the entry. -/
theorem test_set_seam : (after (.setSeam 9 15 255 3 63 1) State.reset).geo.seams.get 15 = ⟨none, 3, 63, 1⟩ := by decide
/-- R8: in IDLE the active statuses change at once. -/
theorem test_set_nozzles : (after (.setNozzles 9 0 0 6 2 [1, 2]) idlePart).geo.active = [(6, .weak), (7, .out)] := by decide
/-- R9: in a job the staged statuses change and E is the frontier + 1; the retire point −1 has then reached E − 1 (R11). -/
theorem test_set_nozzles_staged :
    (let t := after (.setNozzles 9 0 0 15 1 [2]) jobPart;
      (t.geo.staged, t.geo.active, t.geo.switches.get 0)) = ([(15, .out)], [(15, .out)], ⟨false, 0⟩) := by decide
/-- R12: a head with no pending switch answers flag 0, E 0, the count and the active statuses. -/
theorem test_read_nozzles :
    (after (.readNozzles 9 0 0 0 2) idlePart).feed.replies.map (fun r => r.2.body) = [[0, 0, 0, 0, 0, 0, 0, 2, 0, 0, 0]] := by decide
/-- R14: an OFFLINE port whose fault input is low goes to READY. -/
theorem test_restore_head :
    ((after (.restoreHead 9 0) (idlePart.updPort 0 (fun p => { p with state := .offline }))).ports.get 0).state = .ready := by decide
/-- R37: the settings are replaced. -/
theorem test_set_motion : (after (.setMotion 9 1 2 3 4 5) State.reset).motion.ratio = some ⟨4, 5⟩ := by decide
/-- R39: a hold that met the old F alone is compared with the new one. -/
theorem test_set_motion_hold :
    (after (.setMotion 9 0 3 0 1 1) (withInputs rising low State.reset)).motion.inputA = ⟨false, some 0, false⟩ := by decide
/-- R51: in a job the ratio is pending. -/
theorem test_set_ratio : (after (.setRatio 9 1 2) jobPart).motion.pendingRatio = some ⟨1, 2⟩ := by decide
/-- R59. -/
theorem test_set_trigger :
    (let t := (after (.setTrigger 9 3 2 255 7) State.reset).place.triggers.get 3;
      (t.edge, t.filter, t.lockout)) = (.falling, 255, 7) := by decide
/-- R143: a READY port's timer is armed. -/
theorem test_set_keep_wet : ((after (.setKeepWet 9 0 2 1) idlePart).ports.get 0).keepWet = ⟨2, .once, true, 0, false⟩ := by decide
/-- R79: the template region is what the slots and depths leave of 262,144 blocks. -/
theorem test_set_memory_plan : (after (.setMemoryPlan 9 2 4 0 0 0 0 0) State.reset).templates.free = [⟨6, 262138⟩] := by decide
/-- R85: a template takes the low end of the first extent that is long enough. -/
theorem test_define_template :
    (let t := after (.defineTemplate 9 0 3) (idlePart.setTemplates { idlePart.templates with free := [⟨26, 2⟩, ⟨40, 9⟩] });
      (t.templates.free, (t.templates.records.get 0).first)) = ([⟨26, 2⟩, ⟨43, 6⟩], 40) := by decide
/-- R90: the extent joins its neighbours. -/
theorem test_drop_template :
    (after (.dropTemplate 9 0) (idlePart.setTemplates
      { TemplateStore.reset with
        records := TemplateStore.reset.records.put 0 ⟨.complete, 3, 40, 3, .all 6 3⟩, free := [⟨26, 14⟩, ⟨43, 6⟩] })).templates.free
      = [⟨26, 23⟩] := by decide
/-- R93: the next copy sequence and serial move on. -/
theorem test_queue_page :
    (let t := after (.queuePage 9 255 2 3 4 5 4 1) State.reset;
      (t.composer.nextSequence, t.composer.nextSerial, t.composer.marks)) = (2, 6, [⟨0, 0, 0⟩, ⟨1, 0, 0⟩]) := by decide
/-- R103: a lower value is ignored. -/
theorem test_mark : (after (.mark 9 0 3) jobPart).composer.marks = [⟨0, 4, 0⟩] := by decide
/-- R167, R168: the channel is served at once. -/
theorem test_open_channel : (after (.openChannel 9 3 63 2) idlePart).feed.channels.get 2 = ⟨.pending, 63, 2⟩ := by decide
/-- R169: a PENDING channel that holds nothing closes. -/
theorem test_close_channel :
    ((after (.closeChannel 9 3) (after (.openChannel 9 3 63 2) idlePart)).feed.channels.get 2).state = .closed := by decide
/-- R173. -/
theorem test_set_notices : (after (.setNotices 9 0x80) State.reset).feed.mask = 0x80 := by decide
/-- R16: with no plane configured the first check fails. -/
theorem test_start_job_check :
    (after (.startJob 9) State.reset).feed.replies.map (fun r => (r.2.result, r.2.body)) = [(.check, [1, 0, 0, 0])] := by decide +kernel
/-- R150: every check passes and the job runs. -/
theorem test_start_job : (after (.startJob 9) idlePart).job.state = .running := by decide +kernel
/-- R151: with a placement on the web the job stops later. -/
theorem test_stop_job : (after (.stopJob 9) jobPart).job.state = .stopping := by decide
/-- R154. -/
theorem test_abort : (let t := after (.abort 9) jobPart; (t.job.state, t.place.list, t.composer.pages)) = (.idle, [], []) := by decide +kernel
/-- R155: Restart clears the raw encoder count. -/
theorem test_restart : (after (.restart 9) (jobPart.setMotion { jobPart.motion with rawCount := 5 })).motion.rawCount = 0 := by decide +kernel
/-- R152. -/
theorem test_stop_completion :
    (after .stopCompletion ((jobPart.setJob ⟨.stopping, .none⟩).setPlace PlacementUnit.reset)).job.state = .idle := by decide +kernel
/-- R11: the staged statuses become active. -/
theorem test_map_switch :
    (after (.mapSwitchComplete 0) (jobPart.setGeo
      { jobPart.geo with staged := [(3, .out)], switches := jobPart.geo.switches.put 0 ⟨true, 0⟩ })).geo.active = [(3, .out)] := by decide
/-- R40, R46: a forward count at ratio 1 : 1 makes a print tick. -/
theorem test_encoder_print_tick :
    (let t := after .encoderFilterAccept (withInputs rising low jobPart);
      (t.motion.p, t.motion.h, t.motion.rawCount)) = (1, 1, 1) := by decide +kernel
/-- R41: both inputs at one tick are an illegal transition. -/
theorem test_encoder_illegal :
    (after .encoderFilterAccept (withInputs rising rising jobPart)).countOf .encoderErrors = 1 := by decide
/-- R64: a product edge places the next copy at H + 1 + top margin. -/
theorem test_product_edge :
    (after (.pdFilterAccept 0)
      ((jobPart.setComposer { jobPart.composer with pages := [⟨0, 1, 0, 4, 0, 7, .pd 0, none, true⟩] }).setPlace
        { PlacementUnit.reset with triggers := PlacementUnit.reset.triggers.put 0 ⟨.both, 0, 0, rising, 0⟩ })).place.list
      = [⟨0, 8, 4, 0, 0⟩] := by decide
/-- R67: a continuous copy is placed at the greater of the floor and H + 1. -/
theorem test_continuous_placement :
    (after .continuousPlacement (jobPart.setPlace PlacementUnit.reset)).place.list = [⟨0, 1, 4, 0, 0⟩] := by decide
/-- R128: with policy HALT the job halts and the offline-from serial is the frontier + 1. -/
theorem test_head_fault :
    (let t := after (.headFault 0) (jobPart.updPort 0 (fun p => { p with faultCount := 100 }));
      ((t.ports.get 0).state, t.job, t.geo.offlineFrom.get 0)) = (.offline, ⟨.halted, .headFault 0⟩, some 0) := by decide +kernel
/-- R133: 16 nozzles load in 32 ticks. -/
theorem test_load_grant :
    (let t := after (.loadGrant 0) (withRow { Row.reset with load := .queued, line := some ⟨0, 0⟩ } [0] jobPart);
      ((t.row 0 0).load, (t.row 0 0).loadEnd, (t.rings.get 0).frontier)) = (.loading, 32, 0) := by decide +kernel
/-- R22, R133: blank pixels load as level 0 and the serial is released. -/
theorem test_load_complete :
    (let t := after (.loadComplete 0) (withRow { Row.reset with load := .loading, line := some ⟨0, 0⟩ } [] jobPart);
      ((t.row 0 0).load, (t.row 0 0).data, (t.rings.get 0).retire)) = (.loaded, List.replicate 16 0, 0) := by decide +kernel
/-- R138: an inked line counts a drop fire and starts a window of 100 ticks. -/
theorem test_fire :
    (let t := after (.fire 0 0) (withRow { Row.reset with load := .loaded, line := some ⟨0, 0⟩, due := some 0, inked := true } [] jobPart);
      ((t.row 0 0).window, t.countOf (.dropFires 0), t.countOf (.lateFires 0))) = (some 100, 1, 0) := by decide +kernel
/-- R132: row 0 joins at the instant at which row 1 joined, and stands before it. -/
theorem test_fire_joins_in_row_order :
    ((after (.fire 0 0) (twoRows.setRings (twoRows.rings.put 0 ⟨[⟨0, 0⟩], 1, -1, -1⟩))).ports.get 0).arbiter = [0, 1] := by
  decide +kernel
/-- R139. -/
theorem test_fire_window_end :
    ((after (.fireWindowEnd 0 0) (withRow { Row.reset with window := some 0 } [] jobPart)).row 0 0).window = none := by decide
/-- R144: a due line defers the pulse. -/
theorem test_keep_wet_expiry :
    ((after (.keepWetExpiry 0) ((withRow { Row.reset with load := .loaded, line := some ⟨0, 0⟩, due := some 9 } [] jobPart).updPort 0
      (fun p => { p with keepWet := ⟨0, .once, true, 0, false⟩ }))).ports.get 0).keepWet.deferred = true := by decide
/-- R145: mode ONCE disarms the timer. -/
theorem test_keep_wet_pulse :
    (let t := after (.keepWetPulse 0) (jobPart.updPort 0 (fun p => { p with keepWet := ⟨0, .once, true, 0, true⟩ }));
      ((t.row 0 0).window, (t.ports.get 0).keepWet.armed, t.countOf (.keepWetPulses 0))) = (some 100, false, 1) := by decide +kernel
/-- R105, R114: the block is the one at plane 0's write position, block 2 of this plan. -/
theorem test_compose_begin : (after .composeBegin jobPart).composer.flight = some ⟨[(0, 2)], []⟩ := by decide
/-- R107, R115: the line is committed and the compose line moves on. -/
theorem test_composition_complete :
    (let t := after .compositionComplete (jobPart.setComposer { jobPart.composer with flight := some ⟨[(0, 2)], []⟩ });
      ((t.rings.get 0).entries, t.composer.line, t.memory.cells)) = ([⟨0, 0⟩], 1, []) := by decide +kernel
/-- R162: a wrong sync byte is a header error and the link trains anew. -/
theorem test_frame_header_error :
    (let t := after (.frameHeaderReceived 0 0 1 0 1 0) (linked State.reset);
      (t.countOf .headerErrors, t.feed.link)) = (1, .training) := by decide +kernel
/-- R163: a REQUEST frame joins the control request queue with the outcome of its check. -/
theorem test_frame_received :
    (after (.frameReceived [0x15] 0) ((linked State.reset).setFeed
      { (linked State.reset).feed with incoming := some ⟨.request, 9, 1, false⟩ })).feed.requests = [⟨9, [0x15], false⟩] := by decide +kernel
/-- R171: a failed check is answered CORRUPT with the tag of the header. -/
theorem test_request_taken :
    (after .requestTaken (State.reset.setFeed { State.reset.feed with requests := [⟨9, [0x15], false⟩] })).feed.replies.map
      (fun r => (r.2.tag, r.2.code, r.2.result)) = [(9, 0x15, .corrupt)] := by decide
/-- R97: a patch on a channel that is not OPEN is dropped with reason CHANNEL and zero fields where it is too short. -/
theorem test_patch_frame :
    (let t := after (.patchFrame 0) (State.reset.setFeed { State.reset.feed with awaiting := [⟨true, 0, [7], true⟩] });
      (t.countOf .patchesDropped, t.feed.notices.map (·.2)))
      = (1, [.firstEvent .patchesDropped, .patchDropped (.patch 0 0 0) .channel]) := by decide
/-- R86: a template line on a channel that is not OPEN is dropped. -/
theorem test_template_line_frame :
    (after (.templateLineFrame 2) (State.reset.setFeed { State.reset.feed with awaiting := [⟨false, 2, [], true⟩] })).countOf
      .templateLinesDropped = 1 := by decide
/-- R86 test 4: a line of a plane whose fill count has reached the length is dropped ORDER. -/
theorem test_template_line_full :
    lineDropReason
        ((channelIn .opened idlePart).setTemplates { TemplateStore.reset with
          records := TemplateStore.reset.records.put 0 ⟨.filling, 1, 26, 2, .all 6 1⟩ })
        ⟨false, 0, [0, 0] ++ leBytes 2 1 ++ leBytes 2 16 ++ [1, 2, 3, 4], true⟩ = some .order := by decide +kernel
/-- R87: the last line of the only configured plane makes the template COMPLETE. -/
theorem test_template_line_write :
    (let t := after .templateLineWriteComplete (idlePart.setTemplates
        { TemplateStore.reset with
          records := TemplateStore.reset.records.put 0 ⟨.filling, 1, 26, 1, .all 6 0⟩, writing := some ⟨0, 0, 0, 26, [0xE4]⟩ });
      ((t.templates.records.get 0).state, t.memory.cells)) = (.complete, [(106496, 0xE4)]) := by decide +kernel
/-- R98: the slot holds the patch's pixels and the accepted-patch count rises. -/
theorem test_patch_write :
    (let t := after .patchWriteComplete (jobPart.setPool ⟨[], some ⟨⟨0, 0, 3, 0, 4, .replace, 1, 0⟩, [0x1B]⟩⟩);
      (t.memory.cells, t.composer.marks)) = ([(4096, 0x1B)], [⟨0, 4, 1⟩]) := by decide +kernel
/-- R169. -/
theorem test_channel_drained :
    ((after (.channelDrained 0) (idlePart.setFeed { idlePart.feed with
      channels := idlePart.feed.channels.put 0 ⟨.draining, 1, 1⟩ })).feed.channels.get 0).state = .closed := by decide
/-- R165: the frame opens the channel, and its bytes are those of section 11.1. -/
theorem test_credit_frame_sent :
    (let t := after .creditFrameSent ((linked idlePart).setFeed { (linked idlePart).feed with
        channels := idlePart.feed.channels.put 0 ⟨.pending, 1, 1⟩, sending := some (.credit 1 1) });
      ((t.feed.channels.get 0).state, t.feed.sent.take 6)) = (.opened, [0x5C, 1, 0x83, 0, 2, 0]) := by decide +kernel
/-- R174: the reply leaves its queue. -/
theorem test_frame_sent :
    (after .frameSent ((linked State.reset).setFeed { (linked State.reset).feed with
      replies := [(0, ⟨9, 0x15, .done, []⟩)], sending := some .reply })).feed.replies = [] := by decide +kernel
/-- R164: channel 0 earns 8 credits when the link comes UP, and its CREDIT frame is chosen first. -/
theorem test_link_up :
    (let t := after .linkUp State.reset; ((t.feed.credit.get 0).limit, t.feed.sending)) = (8, some (.credit 0 8)) := by decide
/-- R160: a training attempt of 2 ms begins again. -/
theorem test_training_timeout :
    (after .trainingTimeout { State.reset with
      now := 200000, feed := { Feed.reset with link := .training } }).feed.trainingStart = 200000 := by decide
/-- R161: an OPEN channel goes to PENDING. -/
theorem test_word_lock_loss :
    ((after .wordLockLoss ((linked idlePart).setFeed { (linked idlePart).feed with
      channels := idlePart.feed.channels.put 0 ⟨.opened, 1, 1⟩ })).feed.channels.get 0).state = .pending := by decide
/-- R159. -/
theorem test_reset_assert : (let t := after .resetAssert jobPart; (t.job.state, t.resetHeld)) = (.idle, true) := by decide
/-- R159. -/
theorem test_reset_release : (after .resetRelease { State.reset with resetHeld := true }).resetHeld = false := by decide
/-- R1. -/
theorem test_power_on : ((after .powerOn jobPart).geo.planes.get 0).width = 0 := by decide

/-! ### Witnesses: states and operands that meet each statement's hypotheses, clause by clause -/

/-- A port's row 0 with a line due and loaded. -/
def dueRow : Row := { Row.reset with load := .loaded, line := some ⟨0, 0⟩, due := some 0, inked := true }
/-- A row whose load is running. -/
def loadingRow : Row := { Row.reset with load := .loading, line := some ⟨0, 3⟩ }
/-- A row in the arbiter queue. -/
def queuedRow : Row := { Row.reset with load := .queued, line := some ⟨0, 0⟩ }
/-- `jobPart` about to make a print tick. -/
def tickPart : State := withInputs rising low jobPart
/-- `tickPart` with two rows: row 0 holds its prefetched line loaded and released, row 1 holds none, and the ring is empty. -/
def mixedPart : State :=
  (withRow { Row.reset with load := .loaded, line := some ⟨0, 0⟩, release := 0 } [] tickPart).setGeo
    { tickPart.geo with heads := tickPart.geo.heads.put 0 ⟨some 0, 0, 2, 8, .all 4 0, .all 4 0, 100, .halt⟩ }
/-- A job with two DRAINING channels and one WAITING for both their slots. -/
def drainingPart : State :=
  jobPart.setFeed { jobPart.feed with channels := #v[⟨.draining, 1, 1⟩, ⟨.draining, 1, 1⟩, ⟨.waiting, 1, 2⟩], order := [2] }
/-- `jobPart` after one line of web with the web one line back. -/
def backPart : State := (withInputs low low jobPart).setMotion { (withInputs low low jobPart).motion with p := -1, h := 0 }
/-- A pending switch of plane 0. -/
def switching : State := jobPart.setGeo { jobPart.geo with switches := jobPart.geo.switches.put 0 ⟨true, 0⟩ }
/-- A template being written. -/
def writingLine : TemplateWrite := ⟨0, 0, 0, 262143, [0xE4]⟩
/-- A patch being written. -/
def writingPatch : PatchWrite := ⟨⟨0, 0, 3, 0, 4, .replace, 1, 0⟩, [0x1B]⟩
/-- A state with data frames awaiting handling. -/
def awaits (fs : List DataFrame) (s : State) : State := s.setFeed { s.feed with awaiting := fs }

theorem witness_StepRunsFrontCommand :
    ({ State.reset with pending := [.powerOn, .linkUp] } : State).pending = .powerOn :: [.linkUp] := by decide
theorem witness_EmptyQueueStep :
    (State.reset.pending = [] ∧ State.reset.resetHeld = false ∧ State.reset.feed.link = .down)
      ∧ (let s := { State.reset with now := 200000, feed := { Feed.reset with link := .training } };
        s.pending = [] ∧ s.resetHeld = false ∧ s.feed.link ≠ .down ∧ ∃ c ∈ internalEvents, due s c = true)
      ∧ (let s := { State.reset with feed := { Feed.reset with link := .training } };
        s.pending = [] ∧ s.feed.link ≠ .down ∧ ∀ c ∈ internalEvents, due s c = false)
      ∧ (let s := { State.reset with sampled := true, feed := { Feed.reset with link := .training } };
        s.pending = [] ∧ s.resetHeld = false ∧ s.sampled = true ∧ s.feed.link ≠ .down ∧ ∀ c ∈ internalEvents, due s c = false)
      ∧ ({ State.reset with resetHeld := true } : State).resetHeld = true := by decide +kernel
theorem witness_TicksSampleInputs :
    (let s := { State.reset with sampled := true, inputs :=
          [⟨⟨true, true, Pins.reset.pd.put 3 true, Pins.reset.fault.put 0 true⟩, []⟩] };
      s.sampled = true ∧ s.resetHeld = false ∧ s.pins = Pins.reset
        ∧ (∀ i < 5, (s.pinsAt i).a ≠ s.motion.inputA.level) ∧ (∀ i < 5, (s.pinsAt i).b ≠ s.motion.inputB.level)
        ∧ (∀ i < 5, (s.pinsAt i).pd.get 3 ≠ (s.place.triggers.get 3).input.level)
        ∧ (s.pinsAt 4).pd.get 0 = (s.place.triggers.get 0).input.level)
      ∧ (let s := { idlePart with sampled := true, inputs :=
          [⟨⟨true, true, Pins.reset.pd, Pins.reset.fault.put 0 true⟩, []⟩, ⟨⟨false, false, Pins.reset.pd, Pins.reset.fault.put 0 true⟩, []⟩] };
        s.sampled = true ∧ s.resetHeld = false ∧ (s.pinsAt 1).a = s.motion.inputA.level ∧ (s.pinsAt 1).b = s.motion.inputB.level
          ∧ (s.ports.get 0).state = .ready ∧ ∀ i < 7, (s.pinsAt i).fault.get 0 = true)
      ∧ ((idlePart.pinsAt 3).fault.get 0 = false ∧ (idlePart.ports.get 1).state ≠ .ready)
      ∧ State.reset.sampled = false ∧ State.reset.resetHeld = false := by decide +kernel
theorem witness_ResetHoldsThePart :
    ({ State.reset with resetHeld := true } : State).pending = [] ∧ ({ State.reset with resetHeld := true } : State).resetHeld = true
      ∧ Instr.linkUp ≠ .resetAssert ∧ Instr.linkUp ≠ .resetRelease
      ∧ Instr.linkUp ≠ .powerOn := by decide
theorem witness_ConfigurationTests :
    (isConfiguration (.setPlane 6 16384 0 0 0 0) = true ∧ ready jobPart ∧ outOfRange (.setPlane 6 16384 0 0 0 0) = true)
      ∧ (isConfiguration (.setPlane 5 16384 3 3 3 3) = true ∧ outOfRange (.setPlane 5 16384 3 3 3 3) = false
        ∧ jobPart.job.state ≠ .idle)
      ∧ outOfRange (.setHead 11 255 16383 4 768 60000 60000 60000 60000 255 255 255 255 100 1) = false
      ∧ outOfRange (.setHead 11 6 0 1 8 0 0 0 0 0 0 0 0 100 0) = true
      ∧ outOfRange (.setSeam 15 11 11 63 0) = false ∧ outOfRange (.setMotion 1 255 65535 16777215 16777215) = false
      ∧ outOfRange (.setTrigger 3 3 255 65535) = false ∧ outOfRange (.setMemoryPlan 1 0 2 65535 0 0 0) = false
      ∧ outOfRange (.setMemoryPlan 1 0 1 2 0 0 0) = true ∧ outOfRange (.restoreHead 11) = false := by decide +kernel
/-- Every statement whose one hypothesis is `ready`, in IDLE and in a job. -/
theorem witness_ready : ready State.reset ∧ ready idlePart ∧ ready jobPart := by decide
theorem witness_IdentifyResult : ready jobPart := by decide
theorem witness_StatusReportResult :
    ready jobPart ∧ (-140737488355328 ≤ backPart.motion.p ∧ backPart.motion.p < 140737488355328 ∧ backPart.motion.p = -1)
      ∧ jobPart.motion.period = none
      ∧ (jobPart.setMotion { jobPart.motion with period := some 16777215 }).motion.period = some 16777215
      ∧ (idlePart.job.state ≠ .running ∧ jobPart.job.state = .running ∧ jobPart.motion.ratio.isSome ∧ State.reset.motion.ratio = none)
      ∧ (let c := jobPart.composer
        c.flight = none ∧ c.entryOf c.copy ≠ none ∧ c.markOf c.copy = some ⟨0, 4, 0⟩ ∧ c.line < 4
          ∧ (∀ p : Plane, (jobPart.geo.planes.get p).width ≠ 0 → (jobPart.rings.get p).entries.length < jobPart.memory.depth p))
      ∧ (let s := jobPart.setMemory { jobPart.memory with plan := some ⟨2, .all 6 0⟩ };
        (s.geo.planes.get 0).width ≠ 0 ∧ s.memory.depth 0 ≤ (s.rings.get 0).entries.length)
      ∧ (jobPart.setComposer { jobPart.composer with pages := [], marks := [] }).composer.entryOf 0 = none
      ∧ -140737488355328 ≤ (jobPart.rings.get 0).retire ∧ (jobPart.rings.get 0).frontier < 140737488355328 := by decide
theorem witness_SetPlaneResult :
    (ready idlePart ∧ (5 : Plane).val = (5 : Byte).toNat ∧ outOfRange (.setPlane 5 16384 3 3 3 3) = false ∧ idlePart.job.state = .idle)
      ∧ ((idlePart.geo.planes.get 0).width = 0) ≠ ((0 : BitVec 16).toNat = 0) := by
  refine ⟨by decide, ?_⟩
  have h : (idlePart.geo.planes.get 0).width = 16 := by decide
  simp [h]
theorem witness_SetHeadResult :
    (ready idlePart ∧ (11 : Port).val = (11 : Byte).toNat ∧ idlePart.job.state = .idle
      ∧ outOfRange (.setHead 11 0 16383 4 768 0 0 0 60000 0 0 0 255 65535 1) = false
      ∧ (idlePart.ports.get 11).state = .unassigned)
      ∧ (outOfRange (.setHead 0 255 0 1 8 0 0 0 0 0 0 0 0 100 0) = false ∧ (idlePart.ports.get 0).state ≠ .unassigned)
      ∧ (∃ g : Port, g ≠ 11) := by decide +kernel
theorem witness_SeamTriggerAndKeepWetResults :
    (ready idlePart ∧ outOfRange (.setSeam 15 255 11 63 0) = false ∧ (15 : SeamIx).val = (15 : Byte).toNat
      ∧ (11 : Port).val = (11 : Byte).toNat ∧ idlePart.job.state = .idle)
      ∧ (outOfRange (.setTrigger 3 3 255 65535) = false ∧ (3 : PdIx).val = (3 : Byte).toNat)
      ∧ (0 : Port).val = (0 : Byte).toNat := by decide
theorem witness_MotionSettings :
    ready idlePart ∧ outOfRange (.setMotion 0 0 0 1 1) = false ∧ idlePart.job.state = .idle ∧ jobPart.job.state ≠ .idle := by decide
theorem witness_SetNozzlesAtOnce :
    (ready idlePart ∧ recordsOk idlePart ∧ storesOk idlePart)
      ∧ (11 < (12 : Byte).toNat ∧ (0 : Port).val = (0 : Byte).toNat)
      ∧ ((0 : Byte).toNat < (idlePart.geo.heads.get 0).rows ∧ 1 ≤ (16 : BitVec 16).toNat ∧ (16 : BitVec 16).toNat ≤ 768
        ∧ (0 : BitVec 16).toNat + (16 : BitVec 16).toNat ≤ (idlePart.geo.heads.get 0).nozzles)
      ∧ ¬((1 : BitVec 16).toNat + (16 : BitVec 16).toNat ≤ (idlePart.geo.heads.get 0).nozzles)
      ∧ ([0, 3] : List Byte).length = (2 : BitVec 16).toNat ∧ (∃ b ∈ ([0, 3] : List Byte), 2 < b.toNat)
      ∧ ([0] : List Byte).length ≠ (2 : BitVec 16).toNat
      ∧ (∀ b ∈ ([0, 2] : List Byte), b.toNat ≤ 2) ∧ idlePart.job.state = .idle ∧ jobPart.geo.inUse 1 = false := by
  refine ⟨⟨by decide, by decide, by decide⟩, ?_⟩
  decide
theorem witness_SetNozzlesStaged :
    (ready jobPart ∧ recordsOk jobPart ∧ storesOk jobPart)
      ∧ jobPart.job.state ≠ .idle ∧ (0 : Port).val = (0 : Byte).toNat ∧ jobPart.planeOf 0 = some 0
      ∧ (0 : Byte).toNat < (jobPart.geo.heads.get 0).rows ∧ 1 ≤ (1 : BitVec 16).toNat ∧ (1 : BitVec 16).toNat ≤ 768
      ∧ (15 : BitVec 16).toNat + (1 : BitVec 16).toNat ≤ (jobPart.geo.heads.get 0).nozzles
      ∧ ([2] : List Byte).length = (1 : BitVec 16).toNat ∧ (∀ b ∈ ([2] : List Byte), b.toNat ≤ 2) := by
  refine ⟨⟨by decide, by decide, by decide⟩, ?_⟩
  decide
theorem witness_ReadNozzlesResult :
    ready switching ∧ 11 < (12 : Byte).toNat ∧ (0 : Port).val = (0 : Byte).toNat ∧ (0 : Byte).toNat < (switching.geo.heads.get 0).rows
      ∧ 1 ≤ (16 : BitVec 16).toNat ∧ (0 : BitVec 16).toNat + (16 : BitVec 16).toNat ≤ (switching.geo.heads.get 0).nozzles
      ∧ switching.planeOf 0 = some 0 ∧ (switching.geo.switches.get 0).pending = true
      ∧ (∀ p : Plane, jobPart.planeOf 0 = some p → (jobPart.geo.switches.get p).pending = false) := by decide
theorem witness_RestoreHeadResult :
    ready (idlePart.updPort 11 (fun p => { p with state := .offline })) ∧ (11 : Port).val = (11 : Byte).toNat
      ∧ ((idlePart.updPort 11 (fun p => { p with state := .offline })).ports.get 11).state = .offline
      ∧ idlePart.pins.fault.get 11 = false ∧ idlePart.job.state = .idle := by decide
theorem witness_SetMemoryPlanResult : ready idlePart ∧ outOfRange (.setMemoryPlan 65535 65535 65535 65535 0 0 2) = false := by decide
theorem witness_TemplateRequestResults :
    (ready idlePart ∧ idlePart.templates.writing = none ∧ (15 : TemplateIx).val = (15 : Byte).toNat)
      ∧ (let s := idlePart.setTemplates { TemplateStore.reset with free := [⟨26, 262118⟩] };
        ready s ∧ (⟨26, 262118⟩ : Extent) ∈ s.templates.free.find? (fun e => decide (3 ≤ e.blocks)) ∧ extentsOk s.templates.free = true)
      ∧ (let s := idlePart.setTemplates { TemplateStore.reset with
            records := TemplateStore.reset.records.put 15 ⟨.complete, 3, 40, 3, .all 6 3⟩, free := [⟨26, 14⟩, ⟨43, 6⟩] };
        ready s ∧ (s.templates.records.get 15).state ≠ .free ∧ extentsOk s.templates.free = true
          ∧ 0 < (s.templates.records.get 15).blocks
          ∧ ∀ e ∈ s.templates.free, e.first + e.blocks ≤ 40 ∨ 40 + 3 ≤ e.first) := by decide
theorem witness_QueuePageResult :
    ready jobPart ∧ jobPart.composer.copy ≤ 15 ∧ 15 ≤ jobPart.composer.copy + 15 := by decide
theorem witness_MarkResult :
    ready jobPart ∧ jobPart.composer.markOf (0 : BitVec 32).toNat = some ⟨0, 4, 0⟩ ∧ (1 : Nat) ≠ (0 : BitVec 32).toNat
      ∧ ¬(jobPart.composer.nextSequence ≤ (0 : BitVec 32).toNat) ∧ ¬((0 : BitVec 32).toNat < jobPart.composer.copy)
      ∧ ¬(jobPart.composer.lengthOf 0 < (4 : BitVec 16).toNat) := by decide
theorem witness_OpenChannelResult :
    (ready idlePart ∧ orderOk idlePart) ∧ (2 : DataCh).val + 1 = (3 : Byte).toNat ∧ (0 : DataCh).val + 1 = (1 : Byte).toNat
      ∧ ¬(idlePart.memory.slots < (2 : BitVec 16).toNat) := by
  refine ⟨⟨by decide, by decide⟩, by decide⟩
theorem witness_CloseChannelResult :
    (ready (channelIn .opened idlePart) ∧ orderOk (channelIn .opened idlePart)) ∧ (0 : DataCh).val + 1 = (1 : Byte).toNat
      ∧ (let s := channelIn .draining idlePart;
        (awake s ∧ orderOk s) ∧ (s.feed.channels.get 0).state = .draining ∧ s.slotsInUse 0 = 0 ∧ s.framesAwaiting 0 = 0)
      ∧ (let s := awaits [⟨true, 0, [], true⟩] (channelIn .draining idlePart);
        (ready s ∧ orderOk s) ∧ (s.feed.channels.get 0).state = .draining ∧ ∃ f ∈ s.feed.awaiting, f.channel = 0)
      ∧ ((channelIn .opened idlePart).feed.channels.get 0).state = .opened := by decide
theorem witness_SetNoticesResult : ready jobPart := by decide
/-- `idlePart` with another head table and seam table. -/
def laidOut (heads : Table 12 HeadRec) (seams : Table 16 SeamRec) : State :=
  idlePart.setGeo { idlePart.geo with heads := heads, seams := seams }
/-- A head of one row of 8 nozzles on plane 0. -/
def narrow (first d : Nat) : HeadRec := ⟨some 0, first, 1, 8, .all 4 d, .all 4 0, 100, .goOn⟩
/-- Three heads over column 15. -/
def tripled : State :=
  laidOut ((idlePart.geo.heads.put 1 (narrow 15 0)).put 2 (narrow 15 0)) idlePart.geo.seams
/-- Heads 0 and 1 meet at column 15, with the given entries 0 and 1. -/
def sewn (e f : SeamRec) : State := laidOut (idlePart.geo.heads.put 1 (narrow 15 0)) ((idlePart.geo.seams.put 0 e).put 1 f)
/-- Heads 0 and 1 side by side, head 1 with an offset of 3 lines. -/
def apart : State := laidOut (idlePart.geo.heads.put 1 (narrow 16 3)) idlePart.geo.seams
/-- Where no plane has three heads no column is in three spans. -/
theorem not_triple {g : Geometry} (h : ∀ p : Plane, ∀ a b d : Port, a < b → b < d → isOn g p a → isOn g p b → ¬isOn g p d) :
    ∀ p : Plane, ∀ c < 19456, ¬isTriple g p c := by
  rintro p c - ⟨-, a, ha, b, hab, hb, d, hbd, hd⟩
  exact h p a b d hab hbd ha.1 hb.1 hd.1
/-- The states of the SEAM, DEPTH and OFFLINE witnesses have two heads at most. -/
theorem two_heads (e f : SeamRec) :
    (∀ p : Plane, ∀ c < 19456, ¬isTriple (sewn e f).geo p c) ∧ (∀ p : Plane, ∀ c < 19456, ¬isTriple apart.geo p c)
      ∧ ∀ p : Plane, ∀ c < 19456, ¬isTriple idlePart.geo p c :=
  ⟨not_triple (g := (sewn e f).geo) (show ∀ p : Plane, ∀ a b d : Port, a < b → b < d → isOn (sewn ⟨none, 0, 0, 0⟩ ⟨none, 0, 0, 0⟩).geo p a →
      isOn (sewn ⟨none, 0, 0, 0⟩ ⟨none, 0, 0, 0⟩).geo p b → ¬isOn (sewn ⟨none, 0, 0, 0⟩ ⟨none, 0, 0, 0⟩).geo p d by decide +kernel),
    not_triple (by decide +kernel), not_triple (by decide +kernel)⟩
theorem witness_StartChecksInOrder :
    (ready State.reset ∧ State.reset.job.state = .idle ∧ ∀ p : Plane, ¬isUsed State.reset.geo p)
      ∧ (let s := idlePart.setGeo { idlePart.geo with planes := idlePart.geo.planes.put 5 ⟨16384, 0, 0, 0, 3⟩ };
        ready s ∧ isHeadless s.geo 5 ∧ ∀ q < (5 : Plane), ¬isHeadless s.geo q)
      ∧ ((idlePart.setMotion Motion.reset).motion.ratio = none ∧ (idlePart.setMemory FrameMemory.reset).memory.plan = none
        ∧ isUsed idlePart.geo 0 ∧ ∀ p : Plane, ¬isHeadless idlePart.geo p)
      ∧ (let s := idlePart.setGeo { idlePart.geo with planes := idlePart.geo.planes.put 0 ⟨17, 0, 0, 0, 3⟩ };
        ready s ∧ passes4 s ∧ isGap s.geo 0 16)
      ∧ startCheck idlePart = none := ⟨by decide +kernel, by decide +kernel, by decide +kernel, by decide +kernel, by decide +kernel⟩
theorem witness_StartChecksInOrder_triple :
    (ready tripled ∧ tripled.job.state = .idle ∧ recordsOk tripled) ∧ passes5 tripled ∧ isTriple tripled.geo 0 15
      ∧ ∀ b < 15, ¬isTriple tripled.geo 0 b := by
  have one : ∀ b < 15, ∀ h : Port, reaches tripled.geo 0 h b → h = 0 := by decide +kernel
  refine ⟨by decide +kernel, by decide +kernel, by decide +kernel, ?_⟩
  rintro c hc ⟨-, a, ha, b, hab, hb, -⟩
  exact absurd hab (by rw [one c hc a ha, one c hc b hb]; exact lt_irrefl _)
/-- `idlePart` with plane 1 of 16 columns under heads 1 and 2, which two entries name. -/
def twiceSewn : State :=
  laidOut ((idlePart.geo.heads.put 1 ⟨some 1, 0, 1, 16, .all 4 0, .all 4 0, 100, .halt⟩).put 2
      ⟨some 1, 15, 1, 16, .all 4 0, .all 4 0, 100, .halt⟩) ((idlePart.geo.seams.put 4 ⟨some 1, 2, 0, 0⟩).put 9 ⟨some 1, 2, 0, 0⟩)
/-- R18: condition 3 fails the lowest plane examined, whatever plane the pair prints; with the pair out of use it fails none. -/
theorem test_pair_named_twice :
    (let s := twiceSewn.setGeo { twiceSewn.geo with planes := twiceSewn.geo.planes.put 1 ⟨16, 0, 0, 0, 3⟩ };
      startCheck s = some ⟨.seam, 0, 1⟩) ∧ startCheck twiceSewn = none := by decide +kernel
theorem witness_StartChecksInOrder_seam :
    (let s := sewn ⟨none, 0, 0, 0⟩ ⟨none, 0, 0, 0⟩;
      (ready s ∧ s.job.state = .idle ∧ recordsOk s ∧ passes6 s) ∧ isUsed s.geo 0 ∧ isBare s.geo 0 0 1)
      ∧ (let s := sewn ⟨some 1, 0, 0, 0⟩ ⟨none, 0, 0, 0⟩;
        (ready s ∧ s.job.state = .idle ∧ recordsOk s ∧ passes6 s) ∧ (∀ a b : Port, ¬isBare s.geo 0 a b) ∧ isBad s.geo 0 0)
      ∧ (let s := sewn ⟨some 0, 1, 0, 0⟩ ⟨some 0, 1, 0, 0⟩;
        (ready s ∧ s.job.state = .idle ∧ recordsOk s ∧ passes6 s)
          ∧ ((∀ a b : Port, ¬isBare s.geo 0 a b) ∧ ∀ e : SeamIx, ¬isBad s.geo 0 e) ∧ isTwice s.geo 0)
      ∧ (let s := twiceSewn.setGeo { twiceSewn.geo with planes := twiceSewn.geo.planes.put 1 ⟨16, 0, 0, 0, 3⟩ };
        ((∀ a b : Port, ¬isBare s.geo 0 a b) ∧ ∀ e : SeamIx, ¬isBad s.geo 0 e) ∧ isTwice s.geo 4 ∧ ∀ e < (4 : SeamIx), ¬isTwice s.geo e) := by
  refine ⟨⟨⟨by decide, by decide, by decide +kernel, by decide +kernel, (two_heads _ _).1⟩, by decide +kernel, by decide +kernel⟩,
    ⟨⟨by decide, by decide, by decide +kernel, by decide +kernel, (two_heads _ _).1⟩, by decide +kernel, by decide +kernel⟩,
    ⟨⟨by decide, by decide, by decide +kernel, by decide +kernel, (two_heads _ _).1⟩, by decide +kernel, by decide +kernel⟩,
    by decide +kernel, by decide +kernel, by decide +kernel⟩
theorem witness_StartChecksInOrder_depth :
    (ready apart ∧ apart.job.state = .idle ∧ recordsOk apart ∧ passes7 apart) ∧ isShallow apart 0 ∧ hasRow apart.geo 0 1 0
      ∧ (∀ (h : Port) (k : RowIx), hasRow apart.geo 0 h k → offsetOf apart.geo h k ≤ offsetOf apart.geo 1 0)
      ∧ hasRow apart.geo 0 0 0
      ∧ ∀ (q : Plane) (h : Port) (k : RowIx), hasRow apart.geo q h k → offsetOf apart.geo 0 0 ≤ offsetOf apart.geo h k := by
  refine ⟨⟨by decide, by decide, by decide +kernel, ⟨by decide +kernel, (two_heads ⟨none, 0, 0, 0⟩ ⟨none, 0, 0, 0⟩).2.1⟩,
    by decide +kernel⟩, by decide +kernel, by decide +kernel, by decide +kernel, by decide +kernel, by decide +kernel⟩
theorem witness_StartChecksInOrder_offline :
    (let s := idlePart.updPort 0 (fun p => { p with state := .offline });
      (ready s ∧ s.job.state = .idle ∧ recordsOk s ∧ passes8 s) ∧ isAway s 0 0)
      ∧ (passes8 idlePart ∧ ∀ (p : Plane) (h : Port), ¬isAway idlePart p h) := by
  refine ⟨⟨⟨by decide, by decide, by decide +kernel,
      ⟨⟨by decide +kernel, (two_heads ⟨none, 0, 0, 0⟩ ⟨none, 0, 0, 0⟩).2.2⟩, by decide +kernel⟩, by decide +kernel⟩, by decide +kernel⟩,
    ⟨⟨⟨by decide +kernel, (two_heads ⟨none, 0, 0, 0⟩ ⟨none, 0, 0, 0⟩).2.2⟩, by decide +kernel⟩, by decide +kernel⟩, by decide +kernel⟩
theorem witness_ChecksGiveCoverage : startCheck idlePart = none ∧ (idlePart.geo.planes.get 0).width ≠ 0 := by decide +kernel
theorem witness_StartJobResult :
    (ready jobPart ∧ jobPart.job.state ≠ .idle) ∧ (ready idlePart ∧ idlePart.job.state = .idle ∧ startCheck idlePart = none) := by
  decide +kernel
theorem witness_StopJobResult :
    (ready idlePart ∧ idlePart.job.state ≠ .running) ∧ (ready jobPart ∧ jobPart.job.state = .running ∧ jobPart.place.list ≠ []) := by
  decide
theorem witness_IdleEntryResults :
    (awake jobPart ∧ storesOk jobPart ∧ (∀ c : DataCh, (jobPart.feed.channels.get c).state ≠ .draining)
      ∧ jobPart.feed.replies.length < 8)
      ∧ (let s := jobPart.setPlace PlacementUnit.reset; awake s ∧ storesOk s ∧ s.job.state = .running ∧ s.place.list = [])
      ∧ (let s := (jobPart.setPlace PlacementUnit.reset).setJob ⟨.stopping, .none⟩;
        awake s ∧ storesOk s ∧ s.job.state = .stopping ∧ s.place.list = [])
      ∧ (let s := awaits [⟨true, 0, [], true⟩] (channelIn .draining jobPart);
        awake s ∧ storesOk s ∧ orderOk s ∧ s.feed.replies.length < 8 ∧ (s.feed.channels.get 0).state = .draining)
      ∧ (awake drainingPart ∧ storesOk drainingPart ∧ orderOk drainingPart ∧ drainingPart.feed.replies.length < 8
        ∧ closingAtIdle drainingPart = [0, 1])
      ∧ (let s := drainingPart.setTemplates { drainingPart.templates with writing := some writingLine };
        awake s ∧ storesOk s ∧ orderOk s ∧ closingAtIdle s = [1])
      ∧ (let s := (drainingPart.setPlace PlacementUnit.reset).setJob ⟨.stopping, .none⟩;
        awake s ∧ storesOk s ∧ orderOk s ∧ s.job.state = .stopping ∧ s.place.list = [] ∧ closingAtIdle s = [0, 1]) :=
  ⟨by decide, by decide, by decide, by decide, by decide, by decide, by decide⟩
/-- R168, R169, R153: of two DRAINING channels of quota 1 the second to close makes room in 2 pool slots for a quota of 2; the notices
come in turn. -/
theorem test_abort_closes_and_serves :
    let t := after (.abort 9) drainingPart
    t.feed.notices.map (·.2) = [.jobState .idle .abort, .channelState 0 .closed, .channelState 1 .closed, .channelState 2 .pending]
      ∧ t.feed.order = [] ∧ (t.feed.channels.get 2).state = .pending := by decide +kernel
theorem witness_RestartResult : ready jobPart ∧ storesOk jobPart := by decide
/-- R89, R162: a template line half received at a Restart counts as received and is not handled, though its channel is OPEN again. -/
theorem test_restart_half_received :
    let s := (linked (channelIn .opened idlePart)).setFeed
      { (linked (channelIn .opened idlePart)).feed with incoming := some ⟨.templateLine 0, 0, 1, false⟩ }
    let t := after (.frameReceived [0] 0) (channelIn .opened (after (.restart 9) s))
    t.feed.awaiting = [] ∧ (t.feed.credit.get 1).received = 1 ∧ t.feed.incoming = none := by decide +kernel
theorem witness_MapSwitchResult :
    awake switching ∧ storesOk switching ∧ (switching.geo.switches.get 0).pending = true
      ∧ ((switching.geo.switches.get 0).serial : Int) - 1 ≤ (switching.rings.get 0).retire := by decide
theorem witness_EncoderCounts :
    (let s := withInputs rising rising jobPart;
      awake s ∧ motionOk s ∧ s.motion.inputA.reached = true ∧ s.motion.inputB.reached = true)
      ∧ (let s := withInputs rising low { jobPart with motion := { jobPart.motion with ratio := some ⟨1, 2⟩ } };
        awake s ∧ motionOk s ∧ isForward s.motion ∧ ∃ r ∈ s.motion.ratio, s.motion.acc + r.n < r.m)
      ∧ (let s := withInputs rising low idlePart; awake s ∧ motionOk s ∧ isForward s.motion ∧ s.job.state = .idle)
      ∧ (let s := withInputs low rising { jobPart with motion := { jobPart.motion with ratio := some ⟨1, 2⟩, acc := 1 } };
        awake s ∧ motionOk s ∧ isReverse s.motion ∧ ∃ r ∈ s.motion.ratio, r.n ≤ s.motion.acc) := by
  unfold isForward isReverse
  exact ⟨by decide, by decide, by decide, by decide⟩
theorem witness_ReTravelBoundaries :
    (let s := withInputs rising low backPart;
      awake s ∧ motionOk s ∧ s.job.state ≠ .idle ∧ s.motion.ratio = some ⟨1, 1⟩ ∧ isForward s.motion
        ∧ 1 ≤ s.motion.acc + 1 ∧ s.motion.p < s.motion.h)
      ∧ (let s := withInputs low rising jobPart;
        awake s ∧ motionOk s ∧ s.job.state ≠ .idle ∧ s.motion.ratio = some ⟨1, 1⟩ ∧ isReverse s.motion ∧ s.motion.acc < 1
          ∧ s.motion.h - (s.motion.p - 1) ≤ s.motion.reverseLimit)
      ∧ (let s := withInputs low rising (jobPart.setMotion { jobPart.motion with reverseLimit := 0 });
        awake s ∧ motionOk s ∧ s.job.state ≠ .halted ∧ s.motion.ratio = some ⟨1, 1⟩ ∧ isReverse s.motion ∧ s.motion.acc < 1
          ∧ (s.motion.reverseLimit : Int) < s.motion.h - (s.motion.p - 1))
      ∧ (let s := withInputs low rising (jobPart.setMotion { jobPart.motion with reverseLimit := 0 });
        rowsOk s ∧ ringsOk s ∧ retireOk s ∧ s.participating 0 ≠ []) := by
  unfold isForward isReverse
  exact ⟨by decide, by decide, by decide, by decide +kernel, by decide +kernel, by decide +kernel, by decide⟩
theorem witness_PrintTickUnits :
    (awake tickPart ∧ motionOk tickPart ∧ tickDue tickPart ∧ tickPart.motion.ratio = some ⟨1, 1⟩)
      ∧ (let s := tickPart.setPlace { tickPart.place with list := [⟨0, -3, 4, 0, 0⟩] };
        tickDue s ∧ s.job.state = .running ∧ ∃ q ∈ s.place.list.head?, q.start + q.length + s.place.dMax ≤ s.motion.h + 1) := by
  unfold tickDue isForward
  decide
theorem witness_PrintTickRows :
    (awake tickPart ∧ motionOk tickPart ∧ tickDue tickPart) ∧ rowsOk tickPart ∧ ringsOk tickPart
      ∧ (tickPart.working 0 = true ∧ tickPart.planeOf 0 = some 0 ∧ (0 : RowIx).val < (tickPart.geo.heads.get 0).rows
        ∧ tickPart.job.state ≠ .halted)
      ∧ (let s := tickPart.setJob ⟨.halted, .reverse⟩; motionOk s ∧ tickDue s ∧ s.working 0 = true ∧ s.job.state = .halted)
      ∧ (withRow dueRow [] tickPart).working 0 = true ∧ ((withRow dueRow [] tickPart).row 0 0).due ≠ none
      ∧ rowsOk (withRow dueRow [] tickPart)
      ∧ (dueAt (after .encoderFilterAccept tickPart).place.list 1 = some 0 ∧ (tickPart.row 0 0).release < ((0 : Nat) : Int)
        ∧ ∀ g : Port, g ≠ 0 → tickPart.planeOf g ≠ some 0)
      ∧ (let s := mixedPart;
        let asks := dueAt (after .encoderFilterAccept s).place.list 1
        (awake s ∧ motionOk s ∧ tickDue s ∧ s.job.state ≠ .halted) ∧ rowsOk s ∧ ringsOk s ∧ retireOk s
          ∧ s.working 0 = true ∧ s.planeOf 0 = some 0 ∧ (∀ g : Port, g ≠ 0 → s.planeOf g ≠ some 0) ∧ asks = some 0
          ∧ ((s.row 0 0).settled s.now 100).line ≠ none ∧ ((s.row 0 0).settled s.now 100).release = ((0 : Nat) : Int)
          ∧ ((s.row 0 1).settled s.now 100).line = none ∧ ((s.row 0 1).settled s.now 100).release < ((0 : Nat) : Int)
          ∧ (s.rings.get 0).lookup 0 = none ∧ s.participating 0 ≠ [] ∧ s.working 1 = false
          ∧ (s.geo.heads.get 0).rows ≤ (2 : RowIx).val)
      ∧ ((dueRow.load = .loaded ∧ dueRow.window = none) ∧ dueRow.inked = true) := by
  unfold tickDue isForward
  exact ⟨by decide, by decide +kernel, by decide +kernel, by decide, by decide, by decide, by decide, by decide +kernel,
    by decide +kernel,
    ⟨⟨by decide, by decide +kernel, by decide, by decide⟩, by decide +kernel, by decide +kernel, by decide +kernel, by decide +kernel⟩,
    by decide⟩
/-- R135, R119: beside a row that holds its prefetched line loaded, a row that finds no line counts one underrun; the row that was
at the retire point moves it. -/
theorem test_mixed_underrun :
    let t := after .encoderFilterAccept mixedPart
    t.countOf (.underruns 0) = 1 ∧ (t.row 0 0).due = some 0 ∧ (t.rings.get 0).retire = 0 ∧ (t.rings.get 0).frontier = 0 := by
  decide +kernel
theorem witness_DueLineIndependence :
    (([⟨0, 1, 4, 2, 0⟩, ⟨1, 7, 3, 0, 4⟩] : List Placement).Pairwise (fun a b : Placement => a.start + a.length + a.gap ≤ b.start)
      ∧ (⟨1, 7, 3, 0, 4⟩ : Placement).start ≤ (9 : Int) - (0 : Nat) ∧ (9 : Int) - (0 : Nat) < 7 + (3 : Nat)
      ∧ ∀ q ∈ ([⟨0, 1, 4, 2, 0⟩, ⟨1, 7, 3, 0, 4⟩] : List Placement), ¬(q.start ≤ (6 : Int) - (0 : Nat) ∧ (6 : Int) - (0 : Nat) < q.start + q.length))
      ∧ ((3 : Nat) ≤ 5 ∧ (7 : Int) + 1 ≤ (⟨0, 8, 4, 0, 0⟩ : Placement).start)
      ∧ (⟨0, -2, 4, 0, 0⟩ : Placement).start + (4 : Nat) + (5 : Nat) ≤ (7 : Int) := by decide
theorem witness_ProductEdgeResult :
    (let s := jobPart.setPlace { PlacementUnit.reset with triggers := PlacementUnit.reset.triggers.put 3 ⟨.both, 0, 9, rising, 0⟩ };
      awake s ∧ (s.place.triggers.get 3).input.reached = true ∧ (s.place.triggers.get 3).edge = .both ∧ s.job.state = .running)
      ∧ (let s := idlePart.setPlace { PlacementUnit.reset with triggers := PlacementUnit.reset.triggers.put 3 ⟨.none, 0, 9, rising, 0⟩ };
        awake s ∧ (s.place.triggers.get 3).input.reached = true ∧ s.job.state = .idle) := by decide
theorem witness_ContinuousPlacementResult :
    (let s := jobPart.setPlace PlacementUnit.reset;
      awake s ∧ s.job.state = .running ∧ s.composer.entryOf s.place.nextSequence = some page ∧ page.source = .continuous
        ∧ s.place.list.length < 64 ∧ ∀ q ∈ s.place.list.getLast?, q.start ≤ s.motion.h) := by decide
theorem witness_HeadFaultResult :
    (let s := idlePart.updPort 0 (fun p => { p with faultCount := 100 });
      (awake s ∧ rowsOk s) ∧ (s.ports.get 0).state = .ready ∧ 100 ≤ (s.ports.get 0).faultCount ∧ s.job.state = .idle)
      ∧ (let s := jobPart.updPort 0 (fun p => { p with faultCount := 100 });
        (awake s ∧ rowsOk s) ∧ (s.ports.get 0).state = .ready ∧ 100 ≤ (s.ports.get 0).faultCount
          ∧ (s.job.state ≠ .idle ∧ s.planeOf 0 = some 0 ∧ (s.geo.heads.get 0).policy = .halt ∧ s.job.state ≠ .halted)
          ∧ ringsOk s ∧ retireOk s)
      ∧ (let s := (jobPart.setJob ⟨.halted, .reverse⟩).updPort 0 (fun p => { p with faultCount := 100 });
        rowsOk s ∧ (s.ports.get 0).state = .ready ∧ ¬(s.job.state ≠ .halted)) :=
  ⟨by decide +kernel, ⟨by decide +kernel, by decide, by decide, by decide, by decide +kernel, by decide +kernel⟩, by decide +kernel⟩
theorem witness_LoadResults :
    (let s := withRow queuedRow [0] jobPart;
      awake s ∧ (s.ports.get 0).arbiter = 0 :: [] ∧ s.planeOf 0 = some 0 ∧ (∀ j : RowIx, (s.row 0 j).load ≠ .loading)
        ∧ (s.row 0 0).line = some ⟨0, 0⟩)
      ∧ (let s := withRow loadingRow [] jobPart;
        awake s ∧ s.working 0 = true ∧ (0 : RowIx).val < (s.geo.heads.get 0).rows ∧ (s.row 0 0).load = .loading
          ∧ (∀ j : RowIx, (s.row 0 j).load = .loading → j = 0) ∧ (s.row 0 0).loadEnd ≤ s.now ∧ s.planeOf 0 = some 0
          ∧ (s.row 0 0).line = some ⟨0, 3⟩ ∧ s.memory.ringBase 0 + 3 < 262144) := by decide
theorem witness_FireResult :
    (let s := withRow dueRow [] jobPart;
      awake s ∧ s.job.state = .running ∧ (s.row 0 0).load = .loaded ∧ (s.row 0 0).window = none ∧ (s.row 0 0).due = some 0
        ∧ 0 ≤ s.now)
      ∧ (let s := twoRows.setRings (twoRows.rings.put 0 ⟨[⟨0, 0⟩], 1, -1, -1⟩);
        s.planeOf 0 = some 0 ∧ dueAt s.place.list (s.motion.h + 1 - 0) = some 0 ∧ (s.rings.get 0).lookup 0 = some 0)
      ∧ rowsOk (twoRows.setRings (twoRows.rings.put 0 ⟨[⟨0, 0⟩], 1, -1, -1⟩)) := ⟨by decide, by decide +kernel, by decide +kernel⟩
theorem witness_WindowAndKeepWetResults :
    (let s := withRow { Row.reset with window := some 0 } [] jobPart; awake s ∧ (s.row 0 0).window = some 0 ∧ 0 ≤ s.now)
      ∧ (let s := jobPart.updPort 0 (fun p => { p with keepWet := ⟨0, .once, true, 0, false⟩ });
        (s.ports.get 0).state = .ready ∧ (s.ports.get 0).keepWet.armed = true ∧ (s.ports.get 0).keepWet.deferred = false
          ∧ (s.ports.get 0).keepWet.start + (s.ports.get 0).keepWet.interval * 500000 ≤ s.now
          ∧ ∀ k : RowIx, k.val < (s.geo.heads.get 0).rows → (s.row 0 k).window = none ∧ (s.row 0 k).due = none)
      ∧ ((withRow dueRow [] jobPart).row 0 0).due ≠ none
      ∧ (let s := jobPart.updPort 0 (fun p => { p with keepWet := ⟨1, .once, true, 0, true⟩ });
        awake s ∧ (s.ports.get 0).state = .ready ∧ (s.ports.get 0).keepWet.deferred = true) := by decide
theorem witness_CompositionResults :
    (awake jobPart ∧ jobPart.job.state = .running ∧ jobPart.composer.flight = none
      ∧ jobPart.composer.entryOf jobPart.composer.copy = some page ∧ jobPart.composer.markOf jobPart.composer.copy = some ⟨0, 4, 0⟩
      ∧ jobPart.composer.line < 4
      ∧ (∀ p ∈ allPlanes.filter (fun p => decide ((jobPart.geo.planes.get p).width ≠ 0)),
        (jobPart.rings.get p).entries.length < jobPart.memory.depth p)
      ∧ ∀ w ∈ jobPart.pool.writing, ¬(w.entry.copy = jobPart.composer.copy ∧ w.entry.line = jobPart.composer.line))
      ∧ (let c := (jobPart.setComposer { jobPart.composer with pages := [{ page with template := some 15 }] }).composer;
        page.template = none ∧ c.entryOf c.copy = some { page with template := some 15 })
      ∧ (let f : Composition := ⟨[(0, 2)], [⟨0, 0, 0, 15, 1, .overlay, 1, 0⟩]⟩;
        let s := jobPart.setComposer { jobPart.composer with flight := some f };
        awake s ∧ storesOk s ∧ s.composer.flight = some f ∧ s.composer.entryOf s.composer.copy = some page
          ∧ (f.targets.map (·.1)).Nodup ∧ (f.targets.map (·.2)).Nodup ∧ (∀ b ∈ s.composeBlocks f, b < 262144)
          ∧ ∀ x ∈ f.targets, (∀ y ∈ f.patches, y.slot ≠ x.2) ∧ ∀ y ∈ f.targets, s.baseBlock y.1 ≠ some x.2) := by
  exact ⟨by decide, by decide, by decide⟩
theorem witness_PatchFrameResult :
    (let f : DataFrame := ⟨true, 0, leBytes 4 0 ++ [0, 1] ++ leBytes 2 3 ++ leBytes 2 15 ++ leBytes 2 4 ++ [0xE4], true⟩;
      let s := awaits [⟨false, 0, [], true⟩, f] (channelIn .opened jobPart);
      awake s ∧ s.pool.writing = none ∧ s.feed.awaiting = [⟨false, 0, [], true⟩] ++ f :: [] ∧ f.isPatch = true ∧ f.channel = 0
        ∧ (∀ g ∈ ([⟨false, 0, [], true⟩] : List DataFrame), ¬(g.isPatch = true ∧ g.channel = 0))
        ∧ (0 : Plane).val = (patchHeaderOf f.payload).plane.toNat
        ∧ s.composer.entryOf (patchHeaderOf f.payload).copy = some page ∧ 0 < s.memory.slots
        ∧ ∀ y ∈ s.pool.index, y.slot ≠ 0) := by decide
theorem witness_BlockWriteResults :
    (let s := jobPart.setPool ⟨[], some writingPatch⟩;
      awake s ∧ storesOk s ∧ s.pool.writing = some writingPatch ∧ writingPatch.entry.slot < 262144)
      ∧ (let s := jobPart.setPool ⟨[⟨0, 0, 2, 0, 4, .replace, 0, 0⟩, ⟨0, 0, 4, 0, 4, .replace, 3, 0⟩], some writingPatch⟩;
        awake s ∧ storesOk s ∧ indexOk s)
      ∧ (let s := idlePart.setTemplates { TemplateStore.reset with writing := some writingLine };
        awake s ∧ storesOk s ∧ s.templates.writing = some writingLine ∧ writingLine.block < 262144) := by decide
theorem witness_TemplateLineFrameResult :
    (let f : DataFrame := ⟨false, 2, [15, 0] ++ leBytes 2 0 ++ leBytes 2 16 ++ [1, 2, 3, 4], true⟩;
      let s := awaits [⟨true, 2, [], true⟩, f] idlePart;
      awake s ∧ s.templates.writing = none ∧ s.feed.awaiting = [⟨true, 2, [], true⟩] ++ f :: [] ∧ f.isPatch = false ∧ f.channel = 2
        ∧ (∀ g ∈ ([⟨true, 2, [], true⟩] : List DataFrame), ¬(g.isPatch = false ∧ g.channel = 2))
        ∧ (15 : TemplateIx).val = (lineHeaderOf f.payload).template.toNat
        ∧ (0 : Plane).val = (lineHeaderOf f.payload).plane.toNat) := by decide
theorem witness_DataFrameLayout :
    12 ≤ (List.replicate 12 (0 : Byte)).length ∧ 6 ≤ (List.replicate 6 (0 : Byte)).length ∧ (List.replicate 3 (0 : Byte)).length < 4
      ∧ (4 ≤ (List.replicate 4 (0 : Byte)).length ∧ 5 ≤ (List.replicate 5 (0 : Byte)).length ∧ 8 ≤ (List.replicate 8 (0 : Byte)).length)
      ∧ (1 ≤ (List.replicate 1 (0 : Byte)).length ∧ 2 ≤ (List.replicate 2 (0 : Byte)).length)
      ∧ ([] : List Byte).length < 1 ∧ (List.replicate 7 (0 : Byte)).length < 8 ∧ (List.replicate 1 (0 : Byte)).length < 2 := by decide
theorem witness_FrameArrivalResults :
    (awake (linked idlePart) ∧ (linked idlePart).feed.link = .up ∧ (linked idlePart).feed.incoming = none
      ∧ (2 : DataCh).val + 1 = (3 : Byte).toNat)
      ∧ (let s := (linked idlePart).setFeed { (linked idlePart).feed with incoming := some ⟨.patch 2, 0, 2, false⟩ };
        awake s ∧ s.feed.link = .up ∧ s.feed.incoming = some ⟨.patch 2, 0, 2, false⟩ ∧ ([1, 2] : List Byte).length = 2)
      ∧ (let s := (linked idlePart).setFeed { (linked idlePart).feed with incoming := some ⟨.templateLine 2, 0, 0, true⟩ };
        awake s ∧ s.feed.link = .up ∧ s.feed.incoming = some ⟨.templateLine 2, 0, 0, true⟩ ∧ ([] : List Byte).length = 0) := by decide
theorem witness_RequestTakenResult :
    (let s := jobPart.setFeed { jobPart.feed with requests := [⟨9, [0x0E, 0, 1, 0], true⟩, ⟨8, [], true⟩] };
      ready s ∧ s.feed.requests = ⟨9, [0x0E, 0, 1, 0], true⟩ :: [⟨8, [], true⟩] ∧ s.templates.writing = none) := by decide
theorem witness_TransmitterResults :
    (let s := (linked (channelIn .pending idlePart)).setFeed
        { (linked (channelIn .pending idlePart)).feed with sending := some (.credit 1 1) };
      awake s ∧ s.feed.link = .up ∧ s.feed.sending = some (.credit 1 1))
      ∧ (let s := (linked idlePart).setFeed { (linked idlePart).feed with
            replies := [(0, ⟨9, 1, .done, []⟩)], sending := some .reply };
        s.feed.link = .up ∧ s.feed.sending = some .reply ∧ s.feed.replies = (0, ⟨9, 1, .done, []⟩) :: [])
      ∧ (let s := (linked idlePart).setFeed { (linked idlePart).feed with
            notices := [(0, .copyPrinted 0)], sending := some .notice };
        s.feed.link = .up ∧ s.feed.sending = some .notice ∧ s.feed.notices = (0, .copyPrinted 0) :: [])
      ∧ ([] : List Byte).length < 65536
      ∧ (let f := { Feed.reset with credit := Feed.reset.credit.put 0 ⟨0, 8, 0⟩ }; (f.credit.get 0).limit ≠ (f.credit.get 0).announced)
      ∧ ((Feed.reset.credit.get 0).limit = (Feed.reset.credit.get 0).announced ∧ Feed.reset.replies = []) := by decide
theorem witness_LinkStateResults :
    (awake State.reset ∧ State.reset.feed.link ≠ .up)
      ∧ (let s := { State.reset with now := 200000, feed := { Feed.reset with link := .training } };
        awake s ∧ s.feed.link = .training ∧ s.feed.trainingStart + 200000 ≤ s.now ∧ s.feed.link ≠ .down) := by decide
theorem witness_NoticeAndCounterRules :
    State.reset.feed.mask.getLsbD (Notice.copyPrinted 0).kind = false
      ∧ State.reset.feed.mask.getLsbD (Notice.mapSwitched 5).kind = true ∧ State.reset.feed.notices.length < 32
      ∧ (let s := State.reset.setFeed { Feed.reset with notices := List.replicate 32 (0, .mapSwitched 5) };
        s.feed.mask.getLsbD (Notice.firstEvent .earlyTriggers).kind = true ∧ 32 ≤ s.feed.notices.length)
      ∧ CounterId.earlyTriggers ≠ .dropFires 11 := by decide
theorem witness_LevelsOfALine :
    jobPart.nozzleLevel 0 0 (fun _ => 3) 0 0 15 ≠ 0 ∧ (0 : RowIx).val < (jobPart.geo.heads.get 0).rows
      ∧ (jobPart.setGeo { jobPart.geo with active := [(0, .weak)] }).geo.statusFor 0 0 0 0 0 = .weak := by decide
theorem witness_ColumnOwner :
    (15 < (jobPart.geo.planes.get 0).width ∧ jobPart.geo.covering 0 15 = [0])
      ∧ (let s := jobPart.setGeo { jobPart.geo with
            heads := jobPart.geo.heads.put 1 ⟨some 0, 15, 1, 8, .all 4 0, .all 4 0, 100, .goOn⟩,
            seams := jobPart.geo.seams.put 15 ⟨some 0, 1, 63, 1⟩ };
        15 < (s.geo.planes.get 0).width ∧ s.geo.covering 0 15 = [0, 1] ∧ (s.geo.seams.get 15).left = some 0
          ∧ (s.geo.seams.get 15).right = 1 ∧ ∀ d : SeamIx, (s.geo.seams.get d).names 0 1 = true → d = 15)
      ∧ (awake switching ∧ storesOk switching ∧ (switching.geo.switches.get 0).pending = true
        ∧ ((switching.geo.switches.get 0).serial : Int) - 1 ≤ (switching.rings.get 0).retire
        ∧ (switching.geo.switches.get 0).serial ≤ 0 ∧ switching.planeOf 0 = some 0) := by decide
theorem witness_ColumnOwner_switch : exec (.mapSwitchComplete 0) switching = .next (after (.mapSwitchComplete 0) switching) := rfl
theorem witness_RequestRoundTrip :
    (Request.setNozzles 11 3 767 1 [2]).wellFormed = true ∧ decodeRequest [0x15] = .request .startJob := by decide
theorem witness_StepKeepsMotion : motionOk tickPart ∧ motionOk State.reset := by decide
/-- A template of 4 lines with two stored and one being written, between two free extents of a template region of 8 blocks. -/
def spacePart : State :=
  { idlePart with
    memory := ⟨[], [], some ⟨2, .all 6 43689⟩⟩
    templates := ⟨TemplateStore.reset.records.put 3 ⟨.filling, 4, 262138, 4, .all 6 2⟩, [⟨262136, 2⟩, ⟨262142, 2⟩],
      some ⟨0, 3, 0, 262140, []⟩⟩ }
theorem spaceOk_spacePart : spaceOk spacePart := by
  refine ⟨by decide, by decide, ?_⟩
  intro q hq
  obtain rfl : (⟨2, .all 6 43689⟩ : Plan) = q := by simpa [spacePart] using hq
  refine ⟨by decide +kernel, by decide +kernel, fun block hb hr => ?_⟩
  have hr' : 262136 ≤ block := hr
  obtain rfl | rfl | rfl | rfl | rfl | rfl | rfl | rfl : block = 262136 ∨ block = 262137 ∨ block = 262138 ∨ block = 262139
      ∨ block = 262140 ∨ block = 262141 ∨ block = 262142 ∨ block = 262143 := by omega
  all_goals decide +kernel
theorem witness_StepKeepsBounds :
    (queuesOk jobPart ∧ storesOk jobPart) ∧ recordsOk jobPart ∧ pagesOk jobPart ∧ (placesOk jobPart ∧ composerOk jobPart)
      ∧ (spaceOk spacePart ∧ fillsOk spacePart)
      ∧ indexOk (jobPart.setPool ⟨[⟨0, 0, 2, 0, 4, .replace, 0, 0⟩, ⟨0, 0, 4, 0, 4, .replace, 3, 0⟩], some writingPatch⟩) :=
  ⟨by decide, by decide, by decide, by decide +kernel, ⟨spaceOk_spacePart, by decide +kernel⟩, by decide +kernel⟩
/-- A job with line 0 committed to plane 0's ring and line 1 being composed. -/
def filledPart : State :=
  { jobPart with
    rings := jobPart.rings.put 0 ⟨[⟨0, 0⟩], 1, 0, -1⟩
    composer := { jobPart.composer with line := 1, flight := some ⟨[(0, 3)], []⟩ } }
theorem witness_StepKeepsRowsAndRings :
    (rowsOk jobPart ∧ ringsOk jobPart ∧ retireOk jobPart ∧ jobPart.job.state ≠ .idle)
      ∧ idleOk filledPart ∧ placesOk filledPart ∧ composerOk filledPart ∧ ringsFilled filledPart :=
  ⟨⟨by decide +kernel, by decide +kernel, by decide +kernel, by decide⟩, by decide +kernel, by decide +kernel, by decide +kernel,
    by decide +kernel⟩
theorem witness_StepKeepsJobRules :
    (idleOk idlePart ∧ idlePart.job.state = .idle ∧ jobPart.job.state ≠ .idle)
      ∧ (let s := { filledPart with pending := [.compositionComplete] };
        (storesOk s ∧ recordsOk s ∧ offlineOk s ∧ s.job.state ≠ .idle) ∧ (stepped s).job.state ≠ .idle
          ∧ ((0 : Nat) : Int) ≤ (s.rings.get 0).frontier ∧ ((stepped s).rings.get 0).retire < ((0 : Nat) : Int)) :=
  ⟨⟨by decide +kernel, by decide, by decide⟩, ⟨by decide +kernel, by decide +kernel, by decide +kernel, by decide +kernel⟩,
    by decide +kernel, by decide +kernel, by decide +kernel⟩
theorem witness_StepKeepsJobRules_step :
    step { filledPart with pending := [.compositionComplete] } = .next (stepped { filledPart with pending := [.compositionComplete] }) :=
  rfl
theorem witness_StepKeepsLink :
    (linkOk idlePart ∧ creditOk idlePart) ∧ orderOk idlePart ∧ reservationsOk idlePart ∧ quotasOk idlePart
      ∧ linkOk (linked idlePart) := ⟨by decide +kernel, by decide, by decide, by decide +kernel, by decide +kernel⟩
/-- A step answers a next state from each of these: a print tick in a job, and a tick of the timebase in IDLE. -/
theorem witness_steps :
    step { tickPart with pending := [.encoderFilterAccept] } = .next (stepped { tickPart with pending := [.encoderFilterAccept] })
      ∧ step { idlePart with pending := [.linkUp] } = .next (stepped { idlePart with pending := [.linkUp] }) := ⟨rfl, rfl⟩

end Sys2Proof.Tests
end

section
/-! # The rules that requests share

How a request command answers (R171), what a table of values of section 11.3 gives, and what the end of an event reads. -/

namespace Sys2Proof.Machine

/-- What holds of the number a field stands for holds of every number with its value. -/
theorem forall_val_eq {n m : Nat} {x : Fin n} {motive : Fin n → Prop} (hx : m = x.val) (h : motive x) :
    ∀ y : Fin n, y.val = m → motive y := by
  rintro y hy
  obtain rfl : y = x := Fin.ext (hy.trans hx)
  exact h

/-! ### From a request command to its event -/

/-- Every request command is the handling of its request. -/
theorem exec_commandOf (tag : Byte) (r : Request) (s : State) : exec (commandOf tag r) s = request tag r s := by
  cases r <;> rfl

/-- The requests whose reply other effects can follow in the same event (R11, R150). -/
def effectFollows : Request → Bool
  | .setNozzles .. => true
  | .startJob => true
  | _ => false

/-- Nothing follows the reply of another request, nor one that is not DONE. -/
theorem afterReply_eq_self {r : Request} {x : Result} (h : x ≠ .done ∨ effectFollows r = false) (s : State) :
    afterReply r x s = s := by
  cases r
  case setNozzles port _ _ _ _ =>
    have hx : x ≠ .done := h.resolve_right (by simp [effectFollows])
    simp only [afterReply, completeStaged]
    split
    · split
      · exact if_neg fun e => hx e.1
      · rfl
    · rfl
  case startJob =>
    have hx : x ≠ .done := h.resolve_right (by simp [effectFollows])
    cases x
    case done => exact absurd rfl hx
    all_goals rfl
  all_goals rfl

/-- A request that can be handled, from its owner's answer: the effect, the reply, and what follows it. -/
theorem exec_served {tag : Byte} {r : Request} {s u : State} {a : Answer} (h : ready s) (hw : waitsForWrite r = false)
    (ho : handle r s = (u, a)) :
    exec (commandOf tag r) s = .next (finish (afterReply r a.result (placeReply tag r.code a u))) := by
  rw [exec_commandOf, request_next tag h (canServe_of_ready h hw), serve, ho]

/-- A request whose reply ends its event. -/
theorem exec_answered {tag : Byte} {r : Request} {s u : State} {a : Answer} (h : ready s) (hw : waitsForWrite r = false)
    (ho : handle r s = (u, a)) (hf : a.result ≠ .done ∨ effectFollows r = false) :
    exec (commandOf tag r) s = .next (finish (placeReply tag r.code a u)) := by
  rw [exec_served h hw ho, afterReply_eq_self hf]

/-- A request that its owner answers with an empty body and no effect. -/
theorem exec_refused {tag : Byte} {r : Request} {s : State} {x : Result} (h : ready s) (hw : waitsForWrite r = false)
    (ho : handle r s = (s, .plain x)) (hf : x ≠ .done ∨ effectFollows r = false) :
    ∃ t : State, exec (commandOf tag r) s = .next t ∧ refused s t tag r.code x :=
  ⟨_, exec_answered h hw ho hf, refused_of rfl⟩

theorem sameBlock_refl (s : State) (b : Block) : sameBlock s s b := by
  cases b
  case outside => exact ⟨rfl, rfl, rfl, rfl, rfl, rfl⟩
  all_goals rfl

theorem sameBlock_trans {s t u : State} {b : Block} (h1 : sameBlock s t b) (h2 : sameBlock t u b) : sameBlock s u b := by
  cases b
  case outside =>
    obtain ⟨p, n, i, q, r, e⟩ := h1
    obtain ⟨p', n', i', q', r', e'⟩ := h2
    exact ⟨p'.trans p, n'.trans n, i'.trans i, q'.trans q, r'.trans r, e'.trans e⟩
  all_goals exact h2.trans h1

theorem unchangedBut_trans {bs : List Block} {s t u : State} (h1 : unchangedBut bs s t) (h2 : unchangedBut bs t u) :
    unchangedBut bs s u :=
  fun b hb => sameBlock_trans (h1 b hb) (h2 b hb)

/-- Replacing the Geometry Store leaves every other block alone. -/
theorem unchangedBut_setGeo {bs : List Block} (s : State) (x : Geometry) (hb : .geo ∈ bs) : unchangedBut bs s (s.setGeo x) := by
  intro b hm
  cases b
  case geo => exact absurd hb hm
  case outside => exact ⟨rfl, rfl, rfl, rfl, rfl, rfl⟩
  all_goals rfl

/-- Replacing the Placement Unit leaves every other block alone. -/
theorem unchangedBut_setPlace {bs : List Block} (s : State) (x : PlacementUnit) (hb : .place ∈ bs) :
    unchangedBut bs s (s.setPlace x) := by
  intro b hm
  cases b
  case place => exact absurd hb hm
  case outside => exact ⟨rfl, rfl, rfl, rfl, rfl, rfl⟩
  all_goals rfl

/-- Replacing the link's state leaves every other block alone. -/
theorem unchangedBut_setFeed {bs : List Block} (s : State) (x : Feed) (hb : .feed ∈ bs) : unchangedBut bs s (s.setFeed x) := by
  intro b hm
  cases b
  case feed => exact absurd hb hm
  case outside => exact ⟨rfl, rfl, rfl, rfl, rfl, rfl⟩
  all_goals rfl

/-- Placing a notice leaves every block but the link alone. -/
theorem unchangedBut_placeNotice {bs : List Block} (n : Notice) (s : State) (hb : .feed ∈ bs) :
    unchangedBut bs s (placeNotice n s) := by
  rw [placeNotice_eq]
  exact unchangedBut_setFeed s _ hb

/-- Changing a port leaves every block but the ports alone. -/
theorem unchangedBut_updPort {bs : List Block} (s : State) (h : Port) (f : HeadPort → HeadPort) (hb : .ports ∈ bs) :
    unchangedBut bs s (s.updPort h f) := by
  intro b hm
  cases b
  case ports => exact absurd hb hm
  case outside => exact ⟨rfl, rfl, rfl, rfl, rfl, rfl⟩
  all_goals rfl

/-- The blocks a reply leaves alone. -/
theorem unchangedBut_reply {bs : List Block} {s u : State} (tag code : Byte) (a : Answer) (hb : .feed ∈ bs)
    (h : unchangedBut bs s u) : unchangedBut bs s (finish (placeReply tag code a u)) :=
  unchangedBut_finish hb (unchangedBut_trans h (unchangedBut_setFeed u _ hb))

/-- The reply of a request that announced nothing and whose effect does not touch the link. -/
theorem answered_of {s u : State} {tag code : Byte} {a : Answer} (hf : u.feed = s.feed) (hc : u.counters = s.counters) :
    answered s (finish (placeReply tag code a u)) tag code a.result a.body :=
  answeredAfter_of (signs := []) hf hc

/-! ### Notices read the link alone -/

/-- Placing a notice changes the link by what the link holds, whatever the rest of the state. -/
theorem placeNotice_feed_congr (n : Notice) {s t : State} (h : s.feed = t.feed) :
    (placeNotice n s).feed = (placeNotice n t).feed := by
  simp only [placeNotice_eq, State.setFeed_feed, h]

end Sys2Proof.Machine
end

section
/-! # The tests of the configuration requests (R15)

For each of the seven requests: with a field out of range its owner answers RANGE, and otherwise its fields stand for values and the
owner answers HELD while a job exists. -/

namespace Sys2Proof.Machine

/-- Where a request is out of range exactly when one of two operands stands for no value, in range both stand for one. -/
theorem operands_of_inRange {α β : Type} {a : Option α} {b : Option β} {out : Bool}
    (ho : out = true ↔ a = none ∨ b = none) (h : out = false) : ∃ x y, a = some x ∧ b = some y := by
  cases a <;> cases b <;> simp_all

/-! ### Set Plane (R2) -/

/-- A Set Plane field out of range is one that stands for no value. -/
theorem outOfRange_setPlane {p : Byte} {w : BitVec 16} {a b c k : Byte} :
    outOfRange (.setPlane p w a b c k) = true ↔ planeNumber p = none ∨ planeRecOf w a b c k = none := by
  rw [planeNumber_eq_none, planeRecOf_eq_none, outOfRange, decide_eq_true_iff]

theorem ownSetPlane_outOfRange {p : Byte} {w : BitVec 16} {a b c k : Byte} (s : State)
    (h : outOfRange (.setPlane p w a b c k) = true) : ownSetPlane p w a b c k s = (s, .plain .range) := by
  rcases outOfRange_setPlane.mp h with h | h
  · simp [ownSetPlane, h]
  · cases hp : planeNumber p <;> simp [ownSetPlane, h, hp]

/-- Set Plane with every field in range, test by test. -/
theorem ownSetPlane_inRange {p : Byte} {w : BitVec 16} {a b c k : Byte} (s : State)
    (h : outOfRange (.setPlane p w a b c k) = false) :
    ∃ x : Plane, p.toNat = x.val ∧
      let r : PlaneRec := ⟨w.toNat, a.toNat, b.toNat, c.toNat, k.toNat⟩
      ownSetPlane p w a b c k s =
        if s.job.state ≠ .idle then (s, .plain .held)
        else if s.planeInUse x r then (s, .plain .inUse)
        else (s.setGeo { s.geo with planes := s.geo.planes.put x r }, .plain .done) := by
  obtain ⟨x, r, hx, hr⟩ := operands_of_inRange outOfRange_setPlane h
  refine ⟨x, planeNumber_eq_some.mp hx, ?_⟩
  simp only [ownSetPlane, hx, hr, ← planeRecOf_eq_some hr]

/-! ### Set Head (R4) -/

/-- Some row the head has holds more than 60,000, said entry by entry (R3). -/
theorem exists_row_above (n d0 d1 d2 d3 : Nat) :
    (∃ k : RowIx, k.val < n ∧ 60000 < Table.get #v[d0, d1, d2, d3] k)
      ↔ (0 < n ∧ 60000 < d0) ∨ (1 < n ∧ 60000 < d1) ∨ (2 < n ∧ 60000 < d2) ∨ (3 < n ∧ 60000 < d3) := by
  simp [Fin.exists_fin_succ, Table.get]

/-- A Set Head field out of range is one that stands for no value. -/
theorem outOfRange_setHead {h p : Byte} {c : BitVec 16} {r : Byte} {n d0 d1 d2 d3 : BitVec 16} {f0 f1 f2 f3 : Byte}
    {w : BitVec 16} {y : Byte} (f : Table 4 Nat) :
    outOfRange (.setHead h p c r n d0 d1 d2 d3 f0 f1 f2 f3 w y) = true
      ↔ portNumber h = none ∨ headRecOf p c r n #v[d0.toNat, d1.toNat, d2.toNat, d3.toNat] f w y = none := by
  rw [portNumber_eq_none, headRecOf_eq_none, exists_row_above, outOfRange, decide_eq_true_iff]
  omega

theorem ownSetHead_outOfRange {h p : Byte} {c : BitVec 16} {r : Byte} {n d0 d1 d2 d3 : BitVec 16} {f0 f1 f2 f3 : Byte}
    {w : BitVec 16} {y : Byte} (f : Table 4 Nat) (s : State)
    (ho : outOfRange (.setHead h p c r n d0 d1 d2 d3 f0 f1 f2 f3 w y) = true) :
    ownSetHead h p c r n #v[d0.toNat, d1.toNat, d2.toNat, d3.toNat] f w y s = (s, .plain .range) := by
  rcases (outOfRange_setHead f).mp ho with ho | ho
  · simp [ownSetHead, ho]
  · cases hp : portNumber h <;> simp [ownSetHead, ho, hp]

/-- Set Head with every field in range, test by test. -/
theorem ownSetHead_inRange {h p : Byte} {c : BitVec 16} {r : Byte} {n d0 d1 d2 d3 : BitVec 16} {f0 f1 f2 f3 : Byte}
    {w : BitVec 16} {y : Byte} (f : Table 4 Nat) (s : State)
    (ho : outOfRange (.setHead h p c r n d0 d1 d2 d3 f0 f1 f2 f3 w y) = false) :
    ∃ (x : Port) (rec : HeadRec), h.toNat = x.val
      ∧ headRecOf p c r n #v[d0.toNat, d1.toNat, d2.toNat, d3.toNat] f w y = some rec
      ∧ ownSetHead h p c r n #v[d0.toNat, d1.toNat, d2.toNat, d3.toNat] f w y s =
        if s.job.state ≠ .idle then (s, .plain .held)
        else (setHeadPort x rec.plane.isSome (s.setGeo { s.geo with heads := s.geo.heads.put x rec }), .plain .done) := by
  obtain ⟨x, rec, hx, hr⟩ := operands_of_inRange (outOfRange_setHead f) ho
  exact ⟨x, rec, portNumber_eq_some.mp hx, hr, by simp only [ownSetHead, hx, hr]⟩

/-! ### Set Seam (R6) -/

/-- A Set Seam field out of range is one that stands for no value. -/
theorem outOfRange_setSeam {e l r sh : Byte} {pat : BitVec 64} :
    outOfRange (.setSeam e l r sh pat) = true ↔ seamNumber e = none ∨ seamRecOf l r sh pat = none := by
  rw [seamNumber_eq_none, seamRecOf_eq_none, outOfRange, decide_eq_true_iff]

theorem ownSetSeam_outOfRange {e l r sh : Byte} {pat : BitVec 64} (s : State)
    (h : outOfRange (.setSeam e l r sh pat) = true) : ownSetSeam e l r sh pat s = (s, .plain .range) := by
  rcases outOfRange_setSeam.mp h with h | h
  · simp [ownSetSeam, h]
  · cases he : seamNumber e <;> simp [ownSetSeam, h, he]

/-- Set Seam with every field in range. -/
theorem ownSetSeam_inRange {e l r sh : Byte} {pat : BitVec 64} (s : State)
    (h : outOfRange (.setSeam e l r sh pat) = false) :
    ∃ (x : SeamIx) (rec : SeamRec), e.toNat = x.val ∧ seamRecOf l r sh pat = some rec
      ∧ ownSetSeam e l r sh pat s =
        if s.job.state ≠ .idle then (s, .plain .held)
        else (s.setGeo { s.geo with seams := s.geo.seams.put x rec }, .plain .done) := by
  obtain ⟨x, rec, hx, hr⟩ := operands_of_inRange outOfRange_setSeam h
  exact ⟨x, rec, seamNumber_eq_some.mp hx, hr, by simp only [ownSetSeam, hx, hr]⟩

/-! ### Set Motion (R37) -/

/-- A Set Motion field out of range is one that stands for no value. -/
theorem outOfRange_setMotion {se fl : Byte} {rl : BitVec 16} {n m : BitVec 24} :
    outOfRange (.setMotion se fl rl n m) = true ↔ senseOf se = none ∨ ratioOf n m = none := by
  rw [senseOf_eq_none, ratioOf_eq_none, outOfRange, decide_eq_true_iff]

theorem ownSetMotion_outOfRange {se fl : Byte} {rl : BitVec 16} {n m : BitVec 24} (s : State)
    (h : outOfRange (.setMotion se fl rl n m) = true) : ownSetMotion se fl rl n m s = (s, .plain .range) := by
  rcases outOfRange_setMotion.mp h with h | h
  · simp [ownSetMotion, h]
  · cases he : senseOf se <;> simp [ownSetMotion, h, he]

/-- Set Motion with every field in range. -/
theorem ownSetMotion_inRange {se fl : Byte} {rl : BitVec 16} {n m : BitVec 24} (s : State)
    (h : outOfRange (.setMotion se fl rl n m) = false) :
    ∃ (e : Sense) (r : Ratio), senseOf se = some e ∧ ratioOf n m = some r
      ∧ ownSetMotion se fl rl n m s =
        if s.job.state ≠ .idle then (s, .plain .held)
        else (s.setMotion { s.motion with
            sense := e, filter := fl.toNat, reverseLimit := rl.toNat, ratio := some r,
            inputA := s.motion.inputA.refilter fl.toNat, inputB := s.motion.inputB.refilter fl.toNat }, .plain .done) := by
  obtain ⟨e, r, he, hr⟩ := operands_of_inRange outOfRange_setMotion h
  exact ⟨e, r, he, hr, by simp only [ownSetMotion, he, hr]⟩

/-! ### Set Trigger (R59) -/

/-- A Set Trigger field out of range is one that stands for no value. -/
theorem outOfRange_setTrigger {i e fl : Byte} {lo : BitVec 16} :
    outOfRange (.setTrigger i e fl lo) = true ↔ pdNumber i = none ∨ edgeOf e = none := by
  rw [pdNumber_eq_none, edgeOf_eq_none, outOfRange, decide_eq_true_iff]

theorem ownSetTrigger_outOfRange {i e fl : Byte} {lo : BitVec 16} (s : State)
    (h : outOfRange (.setTrigger i e fl lo) = true) : ownSetTrigger i e fl lo s = (s, .plain .range) := by
  rcases outOfRange_setTrigger.mp h with h | h
  · simp [ownSetTrigger, h]
  · cases hi : pdNumber i <;> simp [ownSetTrigger, h, hi]

/-- Set Trigger with every field in range. -/
theorem ownSetTrigger_inRange {i e fl : Byte} {lo : BitVec 16} (s : State)
    (h : outOfRange (.setTrigger i e fl lo) = false) :
    ∃ (x : PdIx) (g : EdgeSelect), i.toNat = x.val ∧ edgeOf e = some g
      ∧ ownSetTrigger i e fl lo s =
        if s.job.state ≠ .idle then (s, .plain .held)
        else (s.setPlace { s.place with triggers := s.place.triggers.upd x (fun t => t.configure g fl.toNat lo.toNat) },
          .plain .done) := by
  obtain ⟨x, g, hx, hg⟩ := operands_of_inRange outOfRange_setTrigger h
  exact ⟨x, g, pdNumber_eq_some.mp hx, hg, by simp only [ownSetTrigger, hx, hg]⟩

/-! ### Set Memory Plan (R79) -/

/-- A Set Memory Plan field out of range is one that stands for no plan. -/
theorem outOfRange_setMemoryPlan {sl d0 d1 d2 d3 d4 d5 : BitVec 16} :
    outOfRange (.setMemoryPlan sl d0 d1 d2 d3 d4 d5) = true ↔ planOf sl d0 d1 d2 d3 d4 d5 = none := by
  rw [planOf_eq_none, outOfRange, decide_eq_true_iff]

theorem ownSetMemoryPlan_outOfRange {sl d0 d1 d2 d3 d4 d5 : BitVec 16} (s : State)
    (h : outOfRange (.setMemoryPlan sl d0 d1 d2 d3 d4 d5) = true) :
    ownSetMemoryPlan sl d0 d1 d2 d3 d4 d5 s = (s, .plain .range) := by
  simp [ownSetMemoryPlan, outOfRange_setMemoryPlan.mp h]

theorem ownSetMemoryPlan_held {sl d0 d1 d2 d3 d4 d5 : BitVec 16} {s : State}
    (h : outOfRange (.setMemoryPlan sl d0 d1 d2 d3 d4 d5) = false) (hj : s.job.state ≠ .idle) :
    ownSetMemoryPlan sl d0 d1 d2 d3 d4 d5 s = (s, .plain .held) := by
  obtain ⟨q, hq⟩ : ∃ q, planOf sl d0 d1 d2 d3 d4 d5 = some q :=
    Option.ne_none_iff_exists'.mp fun e => by simp [outOfRange_setMemoryPlan.mpr e] at h
  simp only [ownSetMemoryPlan, hq, if_pos hj]

/-! ### Restore Head (R14) -/

/-- Restore Head with a port that does not exist. -/
theorem ownRestoreHead_outOfRange {h : Byte} (s : State) (ho : 11 < h.toNat) :
    ownRestoreHead h s = (s, .plain .range) := by
  simp [ownRestoreHead, portNumber_eq_none.mpr ho]

/-- Restore Head of a port, test by test. -/
theorem ownRestoreHead_inRange {h : Byte} (s : State) {x : Port} (hx : x.val = h.toNat) :
    ownRestoreHead h s =
      if s.job.state ≠ .idle then (s, .plain .held)
      else if (s.ports.get x).state ≠ .offline then (s, .plain .done)
      else if s.pins.fault.get x = true then (s, .plain .state)
      else (portRecovers x s, .plain .done) := by
  simp only [ownRestoreHead, portNumber_eq_some.mpr hx.symm]
  rfl

/-! ### The two tests together -/

/-- R15 test 1: the owner of a configuration request answers RANGE to a field out of range. -/
theorem handle_outOfRange {r : Request} (s : State) (h : outOfRange r = true) : handle r s = (s, .plain .range) := by
  cases r
  case setPlane => exact ownSetPlane_outOfRange s h
  case setHead => exact ownSetHead_outOfRange _ s h
  case setSeam => exact ownSetSeam_outOfRange s h
  case setMotion => exact ownSetMotion_outOfRange s h
  case setTrigger => exact ownSetTrigger_outOfRange s h
  case setMemoryPlan => exact ownSetMemoryPlan_outOfRange s h
  case restoreHead => exact ownRestoreHead_outOfRange s (of_decide_eq_true h)
  all_goals cases h

/-- R15 test 2: it answers HELD while a job exists. -/
theorem handle_held {r : Request} {s : State} (hc : isConfiguration r = true) (h : outOfRange r = false)
    (hj : s.job.state ≠ .idle) : handle r s = (s, .plain .held) := by
  cases r
  case setPlane =>
    obtain ⟨x, -, e⟩ := ownSetPlane_inRange s h
    exact e.trans (if_pos hj)
  case setHead =>
    obtain ⟨x, rec, -, -, e⟩ := ownSetHead_inRange _ s h
    exact e.trans (if_pos hj)
  case setSeam =>
    obtain ⟨x, rec, -, -, e⟩ := ownSetSeam_inRange s h
    exact e.trans (if_pos hj)
  case setMotion =>
    obtain ⟨e, rec, -, -, eq⟩ := ownSetMotion_inRange s h
    exact eq.trans (if_pos hj)
  case setTrigger =>
    obtain ⟨x, g, -, -, e⟩ := ownSetTrigger_inRange s h
    exact e.trans (if_pos hj)
  case setMemoryPlan => exact ownSetMemoryPlan_held h hj
  case restoreHead port =>
    have hp : ¬11 < port.toNat := of_decide_eq_false h
    exact (ownRestoreHead_inRange s (x := ⟨port.toNat, by omega⟩) rfl).trans (if_pos hj)
  all_goals cases hc

/-- A configuration request neither waits for a block write nor is followed by another effect. -/
theorem isConfiguration_plain {r : Request} (h : isConfiguration r = true) :
    waitsForWrite r = false ∧ effectFollows r = false := by
  cases r <;> simp_all [isConfiguration, waitsForWrite, effectFollows]

/-- A field out of range, on the link. -/
theorem configuration_refused_range {tag : Byte} {r : Request} {s : State} (hc : isConfiguration r = true) (hr : ready s)
    (h : outOfRange r = true) : ∃ t : State, exec (commandOf tag r) s = .next t ∧ refused s t tag r.code .range :=
  exec_refused hr (isConfiguration_plain hc).1 (handle_outOfRange s h) (.inr (isConfiguration_plain hc).2)

/-- A request in range while a job exists, on the link. -/
theorem configuration_refused_held {tag : Byte} {r : Request} {s : State} (hc : isConfiguration r = true) (hr : ready s)
    (h : outOfRange r = false) (hj : s.job.state ≠ .idle) :
    ∃ t : State, exec (commandOf tag r) s = .next t ∧ refused s t tag r.code .held :=
  exec_refused hr (isConfiguration_plain hc).1 (handle_held hc h hj) (.inr (isConfiguration_plain hc).2)

/-- What a configuration request does, from what it does with every field in range in IDLE (R15). -/
theorem configuration_result {tag : Byte} {r : Request} {s : State} {effect : State → Prop} (hc : isConfiguration r = true)
    (hr : ready s) (h : outOfRange r = false → s.job.state = .idle →
      ∃ t : State, exec (commandOf tag r) s = .next t ∧ effect t) :
    ∃ t : State, exec (commandOf tag r) s = .next t ∧
      (if outOfRange r = true then refused s t tag r.code .range
       else if s.job.state ≠ .idle then refused s t tag r.code .held
       else effect t) := by
  cases ho : outOfRange r with
  | true => simpa only [if_true] using configuration_refused_range hc hr ho
  | false =>
    by_cases hj : s.job.state = .idle
    · simpa only [Bool.false_eq_true, if_false, hj, ne_eq, not_true] using h ho hj
    · simpa only [Bool.false_eq_true, if_false, ne_eq, hj, not_false_eq_true, if_true]
        using configuration_refused_held hc hr ho hj

/-- Settles O7: the two tests of every configuration request, on the link. -/
theorem configurationTests : Obligations.ConfigurationTests :=
  fun _ _ _ hc hr => ⟨configuration_refused_range hc hr, configuration_refused_held hc hr⟩

end Sys2Proof.Machine
end

section
/-! # Set Plane, Set Head, Set Seam, Set Trigger, Set Keep-wet and Restore Head

What each does once its tests pass (R2, R4, R6, R14, R59, R143), with the port states of R126 and R129. -/

namespace Sys2Proof.Machine

/-! ### The whole ranges -/

@[simp] theorem mem_allPlanes (p : Plane) : p ∈ allPlanes := by revert p; decide
@[simp] theorem mem_allPorts (h : Port) : h ∈ allPorts := by revert h; decide
@[simp] theorem mem_allRows (k : RowIx) : k ∈ allRows := by revert k; decide
@[simp] theorem mem_allTemplates (t : TemplateIx) : t ∈ allTemplates := by revert t; decide
@[simp] theorem mem_allSeams (e : SeamIx) : e ∈ allSeams := by revert e; decide

/-! ### Set Plane (R2) -/

theorem anyDefined_iff (t : TemplateStore) : t.anyDefined = true ↔ ∃ i : TemplateIx, (t.records.get i).state ≠ .free := by
  simp [TemplateStore.anyDefined]

theorem holdsPlane_iff (q : PatchPool) (p : Plane) :
    q.holdsPlane p = true ↔ (∃ e ∈ q.index, e.plane = p) ∨ ∃ w ∈ q.writing, w.entry.plane = p := by
  cases hw : q.writing <;> simp [PatchPool.holdsPlane, hw]

theorem configured_iff (g : Geometry) (p : Plane) : g.configured p = true ↔ (g.planes.get p).width ≠ 0 := by
  simp [Geometry.configured, Nat.pos_iff_ne_zero]

/-- R2 test 3: whether a plane becomes configured or ceases to be while a template or one of its patches depends on it. -/
theorem planeInUse_iff (s : State) (p : Plane) (r : PlaneRec) :
    s.planeInUse p r = true ↔
      (((s.geo.planes.get p).width = 0) ≠ (r.width = 0) ∧ ∃ i : TemplateIx, (s.templates.records.get i).state ≠ .free)
        ∨ (((s.geo.planes.get p).width = 0) ≠ (r.width = 0) ∧ r.width = 0
          ∧ ((∃ e ∈ s.pool.index, e.plane = p) ∨ ∃ w ∈ s.pool.writing, w.entry.plane = p)) := by
  rw [← anyDefined_iff, ← holdsPlane_iff]
  by_cases hw : (s.geo.planes.get p).width = 0 <;> by_cases hr : r.width = 0 <;>
    simp [State.planeInUse, Geometry.configured, hw, hr, Nat.pos_of_ne_zero]

/-- Settles O10: the tests of Set Plane in order, and the record it replaces. -/
theorem setPlaneResult : Obligations.SetPlaneResult := by
  intro tag plane width a1 a2 a3 cap s hs
  refine configuration_result (r := .setPlane plane width a1 a2 a3 cap) rfl hs fun ho hj => ?_
  obtain ⟨x, hx, own⟩ := ownSetPlane_inRange s ho
  simp only [hj, ne_eq, not_true, if_false] at own
  by_cases hb : s.planeInUse x ⟨width.toNat, a1.toNat, a2.toNat, a3.toNat, cap.toNat⟩ = true
  · obtain ⟨t, ht, hr⟩ := exec_refused (tag := tag) (r := .setPlane plane width a1 a2 a3 cap) hs rfl (own.trans (if_pos hb)) (.inr rfl)
    exact ⟨t, ht, forall_val_eq hx ⟨fun _ => hr, fun hn => absurd ((planeInUse_iff ..).mp hb) hn⟩⟩
  · refine ⟨_, exec_answered hs rfl (own.trans (if_neg hb)) (.inr rfl), forall_val_eq hx
      ⟨fun hn => absurd ((planeInUse_iff ..).mpr hn) hb, fun _ => ⟨?_, answered_of (a := .plain .done) rfl rfl, by simp⟩⟩⟩
    exact unchangedBut_reply _ _ _ (by simp) (unchangedBut_setGeo s _ (by simp))

/-! ### Port states (R126, R129) -/

theorem updPort_updPort (s : State) (h : Port) (f g : HeadPort → HeadPort) :
    (s.updPort h f).updPort h g = s.updPort h (fun p => g (f p)) := by
  simp only [State.updPort, State.setPorts]
  congr 1
  exact Table.ext_get fun j => by simp only [Table.get_upd]; split <;> rfl

theorem setGeo_updPort (s : State) (x : Geometry) (h : Port) (f : HeadPort → HeadPort) :
    (s.setGeo x).updPort h f = (s.updPort h f).setGeo x := rfl

/-- A port that has become READY: its fault count starts from 0 and its keep-wet timer anew (R126, R142). -/
def HeadPort.readied (q : HeadPort) (now : Nat) : HeadPort :=
  { q with state := .ready, faultCount := 0, keepWet := q.keepWet.restart now }

/-- A port that has become UNASSIGNED: it counts no fault and its timer is disarmed (R126, R142). -/
def HeadPort.unassigned (q : HeadPort) : HeadPort :=
  { q with state := .unassigned, faultCount := 0, keepWet := q.keepWet.disarm }

theorem portReady_eq (h : Port) (s : State) :
    portReady h s = placeNotice (.headState h .ready) (s.updPort h (fun q => q.readied s.now)) := by
  simp only [portReady, setPortState, updPort_updPort]
  rfl

theorem portUnassigned_eq (h : Port) (s : State) :
    portUnassigned h s = placeNotice (.headState h .unassigned)
      ((s.updPort h HeadPort.unassigned).setGeo { s.geo with offlineFrom := s.geo.offlineFrom.put h none }) := by
  simp only [portUnassigned, setPortState, setGeo_updPort, updPort_updPort]
  rfl

theorem portRecovers_eq (h : Port) (s : State) :
    portRecovers h s = placeNotice (.headState h .ready)
      ((s.updPort h (fun q => q.dropLines.readied s.now)).setGeo { s.geo with offlineFrom := s.geo.offlineFrom.put h none }) := by
  simp only [portRecovers, portReady_eq, setGeo_updPort, updPort_updPort]
  rfl

/-- Everything the plane field of a Set Head can do to its port (R4). -/
theorem setHeadPort_cases (h : Port) (assigned : Bool) (s : State) :
    (assigned = true ∧ (s.ports.get h).state = .unassigned ∧ setHeadPort h assigned s = portReady h s)
      ∨ (assigned = false ∧ (s.ports.get h).state ≠ .unassigned ∧ setHeadPort h assigned s = portUnassigned h s)
      ∨ ((assigned = true ↔ (s.ports.get h).state ≠ .unassigned) ∧ setHeadPort h assigned s = s) := by
  cases assigned <;> cases hp : (s.ports.get h).state <;> simp [setHeadPort, hp]

/-- A port back in READY, with every row EMPTY, on its own (R129). -/
theorem get_dropLines_readied (q : HeadPort) (now : Nat) (k : RowIx) :
    (q.dropLines.readied now).rows.get k = { q.rows.get k with load := .empty, line := none, due := none } := by
  simp [HeadPort.readied, HeadPort.dropLines, Row.emptied]

/-- What the plane field of a Set Head leaves alone (R4): every other port, and of the Geometry Store all but the port's
offline-from serial. -/
structure HeadPortKeeps (h : Port) (s t : State) : Prop where
  blocks : unchangedBut [.geo, .ports, .counters, .feed] s t
  geo : t.geo = { s.geo with offlineFrom := t.geo.offlineFrom }
  counters : t.counters = s.counters
  others : ∀ g : Port, g ≠ h → t.ports.get g = s.ports.get g ∧ t.geo.offlineFrom.get g = s.geo.offlineFrom.get g

theorem setHeadPort_keeps (h : Port) (assigned : Bool) (s : State) : HeadPortKeeps h s (setHeadPort h assigned s) := by
  rcases setHeadPort_cases h assigned s with ⟨-, -, e⟩ | ⟨-, -, e⟩ | ⟨-, e⟩ <;> rw [e]
  · rw [portReady_eq]
    exact ⟨unchangedBut_trans (unchangedBut_updPort s h _ (by simp)) (unchangedBut_placeNotice _ _ (by simp)), by simp, by simp,
      fun g hg => by simp [Table.get_upd_ne _ _ hg.symm]⟩
  · rw [portUnassigned_eq]
    exact ⟨unchangedBut_trans (unchangedBut_updPort s h _ (by simp))
        (unchangedBut_trans (unchangedBut_setGeo _ _ (by simp)) (unchangedBut_placeNotice _ _ (by simp))), by simp, by simp,
      fun g hg => by simp [Table.get_upd_ne _ _ hg.symm, Table.get_put_ne _ _ hg.symm]⟩
  · exact ⟨fun b _ => sameBlock_refl s b, rfl, rfl, fun g _ => ⟨rfl, rfl⟩⟩

/-- Settles O17: the tests of Restore Head in order, and the port it returns to READY. -/
theorem restoreHeadResult : Obligations.RestoreHeadResult := by
  intro tag port s hs
  have hout : outOfRange (.restoreHead port) = true ↔ 11 < port.toNat := decide_eq_true_iff
  simp only [← hout]
  refine configuration_result (r := .restoreHead port) rfl hs fun ho hj => ?_
  have hp : ¬11 < port.toNat := fun e => by simp [hout.mpr e] at ho
  obtain ⟨x, hx⟩ : ∃ x : Port, port.toNat = x.val := ⟨⟨port.toNat, by omega⟩, rfl⟩
  have own := ownRestoreHead_inRange s hx.symm
  rw [if_neg (not_not.mpr hj)] at own
  by_cases h1 : (s.ports.get x).state ≠ .offline
  · obtain ⟨t, ht, hr⟩ := exec_refused (tag := tag) (r := .restoreHead port) hs rfl (own.trans (if_pos h1)) (.inr rfl)
    exact ⟨t, ht, forall_val_eq hx (by rw [if_pos h1]; exact hr)⟩
  rw [if_neg h1] at own
  by_cases h2 : s.pins.fault.get x = true
  · obtain ⟨t, ht, hr⟩ := exec_refused (tag := tag) (r := .restoreHead port) hs rfl (own.trans (if_pos h2)) (.inr rfl)
    exact ⟨t, ht, forall_val_eq hx (by rw [if_neg h1, if_pos h2]; exact hr)⟩
  rw [if_neg h2, portRecovers_eq] at own
  refine ⟨_, exec_answered hs rfl own (.inr rfl), forall_val_eq hx ?_⟩
  rw [if_neg h1, if_neg h2]
  refine ⟨?_, answeredAfter_of (a := .plain .done) (placeNotice_feed_congr _ rfl) (by simp [tell]), ?_⟩
  · exact unchangedBut_reply _ _ _ (by simp) (unchangedBut_trans (unchangedBut_updPort s x _ (by simp))
      (unchangedBut_trans (unchangedBut_setGeo _ _ (by simp)) (unchangedBut_placeNotice _ _ (by simp))))
  · simp only [finish_geo, placeReply_geo, placeNotice_geo, State.setGeo_geo, finish_ports, placeReply_ports,
      placeNotice_ports, State.setGeo_ports, State.updPort_ports, Table.get_upd_self, get_dropLines_readied, true_and]
    exact ⟨fun g hg => Table.get_upd_ne _ _ (Ne.symm hg), rfl, rfl, rfl, rfl, fun _ => trivial⟩

/-! ### Set Head (R4) -/

/-- A number field that may be NONE, in the numbers of section 11.3. -/
theorem orNone_number_val {n : Nat} {b : Byte} {x : Option (Fin n)} (h : orNone (numberBelow n) b = some x) :
    x.map (fun i => i.val) = if b = 0xFF then none else some b.toNat := by
  rcases orNone_eq_some.mp h with ⟨hb, rfl⟩ | ⟨hb, y, hy, rfl⟩
  · rw [if_pos hb]; rfl
  · rw [if_neg hb, numberBelow_eq_some.mp hy]; rfl

/-- The record a Set Head with every field in range stores (R3, R4). -/
theorem headRecOf_eq_some {p : Byte} {c : BitVec 16} {r : Byte} {n : BitVec 16} {d f : Table 4 Nat} {w : BitVec 16} {y : Byte}
    {rec : HeadRec} (h : headRecOf p c r n d f w y = some rec) :
    orNone planeNumber p = some rec.plane ∧ rec.first = c.toNat ∧ rec.rows = r.toNat ∧ rec.nozzles = n.toNat
      ∧ rec.window = w.toNat ∧ policyOf y = some rec.policy ∧ rec.d = rowFields r.toNat d ∧ rec.f = rowFields r.toNat f := by
  unfold headRecOf at h
  split at h
  · next hp hy =>
    split at h
    · obtain rfl := Option.some.inj h
      exact ⟨hp, rfl, rfl, rfl, rfl, hy, rfl, rfl⟩
    · cases h
  · cases h

/-- Entry `k` of the per-row fields of a request (R4). -/
theorem get_rowFields_vector {w : Nat} (n : Nat) (x0 x1 x2 x3 : BitVec w) (k : RowIx) :
    (rowFields n #v[x0.toNat, x1.toNat, x2.toNat, x3.toNat]).get k
      = (if k.val < n then [x0, x1, x2, x3].getD k.val 0 else 0).toNat := by
  have hk : Table.get #v[x0.toNat, x1.toNat, x2.toNat, x3.toNat] k = ([x0, x1, x2, x3].getD k.val 0).toNat := by
    fin_cases k <;> rfl
  rw [rowFields, Table.get_ofFun]
  split
  · exact hk
  · simp

/-- The plane field of a head record is NONE exactly when the field of the request is FFh. -/
theorem plane_isSome_iff {p : Byte} {x : Option Plane} (h : orNone planeNumber p = some x) : x.isSome = true ↔ p ≠ 0xFF := by
  rcases orNone_eq_some.mp h with ⟨hb, rfl⟩ | ⟨hb, y, -, rfl⟩
  · simp [hb]
  · exact ⟨fun _ => hb, fun _ => rfl⟩

/-- Settles O11: the record Set Head stores, and the port state that follows its plane field. -/
theorem setHeadResult : Obligations.SetHeadResult := by
  intro tag port plane first rows nozzles d0 d1 d2 d3 f0 f1 f2 f3 window policy s hs
  refine configuration_result (r := .setHead port plane first rows nozzles d0 d1 d2 d3 f0 f1 f2 f3 window policy) rfl hs
    fun ho hj => ?_
  obtain ⟨x, rec, hx, hrec, own⟩ := ownSetHead_inRange #v[f0.toNat, f1.toNat, f2.toNat, f3.toNat] s ho
  rw [if_neg (not_not.mpr hj)] at own
  obtain ⟨hplane, hfirst, hrows, hnozzles, hwindow, hpolicy, hd, hf⟩ := headRecOf_eq_some hrec
  have hassigned := plane_isSome_iff hplane
  obtain ⟨u, hu⟩ : ∃ u, u = setHeadPort x rec.plane.isSome (s.setGeo { s.geo with heads := s.geo.heads.put x rec }) := ⟨_, rfl⟩
  have keeps := setHeadPort_keeps x rec.plane.isSome (s.setGeo { s.geo with heads := s.geo.heads.put x rec })
  have kinds := setHeadPort_cases x rec.plane.isSome (s.setGeo { s.geo with heads := s.geo.heads.put x rec })
  rw [← hu] at own keeps kinds
  have hgeo : u.geo = { s.geo with heads := s.geo.heads.put x rec, offlineFrom := u.geo.offlineFrom } := keeps.geo
  refine ⟨_, exec_answered hs rfl own (.inr rfl), forall_val_eq hx ?_⟩
  simp only [finish_geo, placeReply_geo, finish_ports, placeReply_ports]
  refine ⟨unchangedBut_reply _ _ _ (by simp) (unchangedBut_trans (unchangedBut_setGeo s _ (by simp)) keeps.blocks),
    ?_, fun g hg => ⟨?_, keeps.others g hg⟩, by rw [hgeo], by rw [hgeo], by rw [hgeo], by rw [hgeo], by rw [hgeo], ?_⟩
  · have hstored : u.geo.heads.get x = rec := by rw [hgeo]; exact Table.get_put_self _ _ _
    rw [hstored]
    refine ⟨orNone_number_val hplane, hfirst, hrows, hnozzles, hwindow, (policyOf_eq_some.mp hpolicy).2, fun k => ⟨?_, ?_⟩⟩
    · rw [hd, get_rowFields_vector]
    · rw [hf, get_rowFields_vector]
  · rw [hgeo]
    exact Table.get_put_ne _ _ hg.symm
  · rcases kinds with ⟨ha, hp, e⟩ | ⟨ha, hp, e⟩ | ⟨ha, e⟩
    · rw [if_pos ⟨hassigned.mp ha, hp⟩, e, portReady_eq]
      refine ⟨?_, by simp, answeredAfter_of (a := .plain .done) (placeNotice_feed_congr _ rfl) (by simp [tell])⟩
      simp only [placeNotice_ports, State.updPort_ports, Table.get_upd_self]
      rfl
    · have hnone : plane = 0xFF := not_not.mp (mt hassigned.mpr (by simp [ha]))
      rw [if_neg (fun h => h.1 hnone), if_pos ⟨hnone, hp⟩, e, portUnassigned_eq]
      refine ⟨?_, by simp, answeredAfter_of (a := .plain .done) (placeNotice_feed_congr _ rfl) (by simp [tell])⟩
      simp only [placeNotice_ports, State.setGeo_ports, State.updPort_ports, Table.get_upd_self]
      rfl
    · rw [hassigned] at ha
      rw [if_neg (fun h => ha.mp h.1 h.2), if_neg (fun h => ha.mpr h.2 h.1), e]
      exact ⟨rfl, rfl, answered_of (a := .plain .done) rfl rfl⟩

/-! ### Set Seam (R6), Set Trigger (R59) and Set Keep-wet (R143) -/

/-- The entry a Set Seam with every field in range stores (R6). -/
theorem seamRecOf_eq_some {l r sh : Byte} {pat : BitVec 64} {rec : SeamRec} (h : seamRecOf l r sh pat = some rec) :
    ∃ (x : Option Port) (y : Port), orNone portNumber l = some x ∧ r.toNat = y.val ∧ rec = ⟨x, y, sh.toNat, pat⟩ := by
  unfold seamRecOf at h
  split at h
  · next x y hx hy =>
    split at h
    · exact ⟨x, y, hx, portNumber_eq_some.mp hy, (Option.some.inj h).symm⟩
    · cases h
  · cases h

theorem keepWetModeOf_eq_some {b : Byte} {m : KeepWetMode} :
    keepWetModeOf b = some m ↔ b.toNat ≤ 1 ∧ m = if b = 0 then .repeating else .once := by
  revert b
  cases m <;> decide +kernel

theorem ownSetKeepWet_outOfRange {port interval mode : Byte} (s : State) (h : 11 < port.toNat ∨ 1 < mode.toNat) :
    ownSetKeepWet port interval mode s = (s, .plain .range) := by
  rw [← portNumber_eq_none, ← keepWetModeOf_eq_none] at h
  rcases h with h | h
  · simp [ownSetKeepWet, h]
  · cases hp : portNumber port <;> simp [ownSetKeepWet, h, hp]

/-- Set Keep-wet with every field in range: the settings, and the timer of a READY port anew. -/
theorem ownSetKeepWet_inRange {port interval mode : Byte} (s : State) (h : ¬(11 < port.toNat ∨ 1 < mode.toNat)) :
    ∃ (x : Port) (m : KeepWetMode), port.toNat = x.val ∧ m = (if mode = 0 then .repeating else .once)
      ∧ ownSetKeepWet port interval mode s = (s.updPort x (fun p =>
          let k := { p.keepWet with interval := interval.toNat, mode := m }
          { p with keepWet := if p.state = .ready then k.restart s.now else k }), .plain .done) := by
  rw [← portNumber_eq_none, ← keepWetModeOf_eq_none, not_or] at h
  obtain ⟨x, hx⟩ := Option.ne_none_iff_exists'.mp h.1
  obtain ⟨m, hm⟩ := Option.ne_none_iff_exists'.mp h.2
  exact ⟨x, m, portNumber_eq_some.mp hx, (keepWetModeOf_eq_some.mp hm).2, by simp only [ownSetKeepWet, hx, hm]⟩

/-- Settles O12: Set Seam, Set Trigger and Set Keep-wet one after another. -/
theorem seamTriggerAndKeepWetResults : Obligations.SeamTriggerAndKeepWetResults := by
  refine ⟨⟨fun tag entry left right shift pattern s hs => ?_, fun tag input edge filter lockout s hs => ?_⟩,
    fun tag port interval mode s hs => ?_⟩
  · refine configuration_result (r := .setSeam entry left right shift pattern) rfl hs fun ho hj => ?_
    obtain ⟨x, rec, hx, hrec, own⟩ := ownSetSeam_inRange s ho
    obtain ⟨l, y, hl, hy, rfl⟩ := seamRecOf_eq_some hrec
    rw [if_neg (not_not.mpr hj)] at own
    refine ⟨_, exec_answered hs rfl own (.inr rfl), unchangedBut_reply _ _ _ (by simp) (unchangedBut_setGeo s _ (by simp)),
      answered_of (a := .plain .done) rfl rfl, fun e r he hr => ⟨l, orNone_number_val hl, ?_⟩⟩
    obtain rfl : e = x := Fin.ext (he.trans hx)
    obtain rfl : r = y := Fin.ext (hr.trans hy)
    simp only [finish_geo, placeReply_geo, State.setGeo_geo]
  · refine configuration_result (r := .setTrigger input edge filter lockout) rfl hs fun ho hj => ?_
    obtain ⟨x, g, hx, hg, own⟩ := ownSetTrigger_inRange s ho
    rw [if_neg (not_not.mpr hj)] at own
    refine ⟨_, exec_answered hs rfl own (.inr rfl), unchangedBut_reply _ _ _ (by simp) (unchangedBut_setPlace s _ (by simp)),
      answered_of (a := .plain .done) rfl rfl, forall_val_eq hx ?_⟩
    simp only [finish_place, placeReply_place, State.setPlace_place, (edgeOf_eq_some.mp hg).2]
    rfl
  · by_cases ho : 11 < port.toNat ∨ 1 < mode.toNat
    · simp only [if_pos ho]
      exact exec_refused (r := .setKeepWet port interval mode) hs rfl (ownSetKeepWet_outOfRange s ho) (.inr rfl)
    · simp only [if_neg ho]
      obtain ⟨x, m, hx, hm, own⟩ := ownSetKeepWet_inRange (interval := interval) s ho
      refine ⟨_, exec_answered (r := .setKeepWet port interval mode) hs rfl own (.inr rfl),
        unchangedBut_reply _ _ _ (by simp) (unchangedBut_updPort s x _ (by simp)), answered_of (a := .plain .done) rfl rfl,
        forall_val_eq hx ?_⟩
      simp only [finish_ports, placeReply_ports, State.updPort_ports, Table.get_upd_self, ← hm]
      exact ⟨fun g hg => Table.get_upd_ne _ _ hg.symm, rfl⟩

end Sys2Proof.Machine
end

section
/-! # The power-on values -/

namespace Sys2Proof.Machine

/-- After power-on every nozzle status reads LIVE (R7). -/
theorem nozzleStatus_nil (h : Port) (k n : Nat) : nozzleStatus [] h k n = .live := rfl

/-- After power-on every counter is 0 and not announced (R175). -/
theorem reset_counters (c : CounterId) : State.reset.countOf c = 0 ∧ State.reset.isAnnounced c = false :=
  ⟨Table.get_all _ _, Table.get_all _ _⟩

/-- The geometry, the ring and the switch of a plane after power-on (R1, R7, R113). -/
theorem reset_plane (p : Plane) :
    State.reset.geo.planes.get p = .reset ∧ State.reset.geo.switches.get p = ⟨false, 0⟩ ∧ State.reset.rings.get p = .reset :=
  ⟨Table.get_all _ _, Table.get_all _ _, Table.get_all _ _⟩

/-- The record, the offline-from serial and the port of a head after power-on (R3, R13, R126). -/
theorem reset_port (h : Port) :
    State.reset.geo.heads.get h = .reset ∧ State.reset.geo.offlineFrom.get h = none ∧ State.reset.ports.get h = .reset :=
  ⟨Table.get_all _ _, Table.get_all _ _, Table.get_all _ _⟩

/-- A row after power-on (R130). -/
theorem reset_row (h : Port) (k : RowIx) : State.reset.row h k = .reset := by
  rw [State.row, (reset_port h).2.2]
  exact Table.get_all _ _

/-- Settles O4: block by block, each table read at its entry. -/
theorem powerOnValues : Obligations.PowerOnValues := by
  refine ⟨fun p => ?_, fun h => ?_, fun e => ?_, ?_, fun i => ?_, ?_, ?_, ⟨rfl, rfl⟩, reset_counters, ?_⟩
  · obtain ⟨hplane, hswitch, hring⟩ := reset_plane p
    exact ⟨hplane, by rw [hswitch], hring⟩
  · obtain ⟨hhead, hoffline, hport⟩ := reset_port h
    refine ⟨hhead, hoffline, by rw [hport]; rfl, by rw [hport]; rfl, by rw [hport]; rfl, by rw [hport]; rfl, by rw [hport]; rfl,
      by rw [hport]; rfl, fun k => ?_⟩
    rw [reset_row h k]
    exact ⟨rfl, rfl, rfl, rfl, fun n => ⟨nozzleStatus_nil h k n, nozzleStatus_nil h k n⟩⟩
  · rw [show State.reset.geo.seams.get e = .reset from Table.get_all _ _]
    exact ⟨rfl, rfl, rfl⟩
  · exact ⟨rfl, rfl, rfl, rfl, rfl, rfl, rfl, rfl, rfl, rfl, rfl⟩
  · rw [show State.reset.place.triggers.get i = .reset from Table.get_all _ _]
    exact ⟨rfl, rfl, rfl, rfl⟩
  · exact ⟨rfl, rfl, rfl, fun t => by rw [show State.reset.templates.records.get t = .reset from Table.get_all _ _]; rfl⟩
  · exact ⟨rfl, rfl, rfl, rfl, rfl, rfl, rfl⟩
  · exact ⟨rfl, fun c => Table.get_all _ _, fun c => by rw [show State.reset.feed.channels.get c = .reset from Table.get_all _ _]; rfl,
      rfl, rfl, rfl, rfl, rfl, rfl⟩

end Sys2Proof.Machine
end

section
/-! # The nozzle map

Reading the two nozzle maps (R7) after each of their updates, and the requests and the event that use them (R8 to R12). -/

namespace Sys2Proof.Machine

/-! ### Nozzle positions -/

/-- A position names its port (R7). -/
theorem positionPort_nozzlePosition (h : Port) (k : RowIx) {n : Nat} (hn : n < 768) :
    positionPort (nozzlePosition h k.val n) = h.val := by
  have hk := k.isLt
  simp only [positionPort, nozzlePosition, Config.rowNozzles]
  omega

/-- The positions of a run of nozzles within one row are those of its nozzles, one after another. -/
theorem nozzlePosition_in_run {h g : Port} {k : RowIx} {row first count n : Nat} (hr : row < 4) (hf : first + count ≤ 768)
    (hn : n < 768) :
    (nozzlePosition h row first ≤ nozzlePosition g k.val n ∧ nozzlePosition g k.val n < nozzlePosition h row first + count)
      ↔ inRun h row first count g k n = true := by
  have hk := k.isLt
  simp only [nozzlePosition, Config.rowNozzles, inRun, decide_eq_true_iff, Fin.ext_iff]
  omega

/-- A head prints a plane when it is in use on it (R3). -/
theorem planeOf_eq_some {s : State} {h : Port} {p : Plane} : s.planeOf h = some p ↔ s.geo.inUseOn p h = true := by
  unfold State.planeOf Geometry.inUseOn
  cases (s.geo.heads.get h).plane with
  | none => simp
  | some q =>
    by_cases hq : q = p
    · subst hq; simp
    · by_cases hc : s.geo.configured q = true <;> simp [hq, hc]

/-- A head that is not in use prints no plane (R3). -/
theorem planeOf_eq_none {s : State} {h : Port} : s.planeOf h = none ↔ s.geo.inUse h = false := by
  unfold State.planeOf Geometry.inUse
  cases (s.geo.heads.get h).plane <;> simp

theorem mem_headsOn {g : Geometry} {p : Plane} {h : Port} : h ∈ g.headsOn p ↔ g.inUseOn p h = true := by
  simp [Geometry.headsOn]

/-- A position belongs to a plane when its port's head is in use on it. -/
theorem positionOn_nozzlePosition {g : Geometry} {p : Plane} {h : Port} {k : RowIx} {n : Nat} (hn : n < 768) :
    g.positionOn p (nozzlePosition h k.val n) = g.inUseOn p h := by
  rw [Bool.eq_iff_iff, ← mem_headsOn, Geometry.positionOn, positionPort_nozzlePosition h k hn]
  simp only [List.any_eq_true, beq_iff_eq]
  exact ⟨fun ⟨x, hx, e⟩ => Fin.ext e ▸ hx, fun hh => ⟨h, hh, rfl⟩⟩

/-! ### Statuses by their codes (section 11.3) -/

theorem statusOf_eq (b : Byte) : statusOf b = if b.toNat ≤ 2 then some (statusNamed b) else none := by
  revert b
  decide +kernel

/-- A list of codes stands for statuses when each of them does. -/
theorem statusesOf_eq (bs : List Byte) :
    statusesOf bs = if ∀ b ∈ bs, b.toNat ≤ 2 then some (bs.map statusNamed) else none := by
  induction bs with
  | nil => rfl
  | cons b bs ih =>
    simp only [List.forall_mem_cons, statusesOf, statusOf_eq, ih]
    by_cases hb : b.toNat ≤ 2
    · rw [if_pos hb]
      by_cases hbs : ∀ x ∈ bs, x.toNat ≤ 2
      · rw [if_pos hbs, if_pos ⟨hb, hbs⟩]; rfl
      · rw [if_neg hbs, if_neg fun h => hbs h.2]
    · have hn : ¬(b.toNat ≤ 2 ∧ ∀ x ∈ bs, x.toNat ≤ 2) := fun h => hb h.1
      rw [if_neg hb, if_neg hn]

/-! ### The maps after their updates -/

/-- A nozzle map after the statuses of a run are written (R8). -/
theorem nozzleStatus_writeRun (m : List (Nat × NozzleStatus)) {h g : Port} {k : RowIx} {row first n : Nat} (bs : List Byte)
    (hr : row < 4) (hf : first + bs.length ≤ 768) (hn : n < 768) :
    nozzleStatus (sparseWriteRun .live m (nozzlePosition h row first) (bs.map statusNamed)) g k.val n
      = if inRun h row first bs.length g k n then statusNamed (bs.getD (n - first) 0) else nozzleStatus m g k.val n := by
  simp only [nozzleStatus, sparseRead_sparseWriteRun, List.length_map, nozzlePosition_in_run hr hf hn]
  split
  · next hin =>
    have hpos : nozzlePosition g k.val n - nozzlePosition h row first = n - first := by
      obtain ⟨rfl, rfl, -, -⟩ : g = h ∧ k.val = row ∧ first ≤ n ∧ n < first + bs.length := of_decide_eq_true hin
      simp only [nozzlePosition]
      omega
    rw [hpos, show (NozzleStatus.live) = statusNamed 0 from rfl, List.getD_map]
  · rfl

/-- A nozzle map after the positions of a plane are taken from the other (R9, R11). -/
theorem nozzleStatus_copy {s : State} (p : Plane) {src : List (Nat × NozzleStatus)} (dst : List (Nat × NozzleStatus))
    (hs : sparseWf .live src = true) {h : Port} {k : RowIx} {n : Nat} (hn : n < 768) :
    nozzleStatus (sparseCopy .live (s.geo.positionOn p) src dst) h k.val n
      = if s.planeOf h = some p then nozzleStatus src h k.val n else nozzleStatus dst h k.val n := by
  have hk : keysRise src = true := (Bool.and_eq_true_iff.mp hs).1
  simp only [nozzleStatus, sparseRead_sparseCopy _ _ _ _ hk, positionOn_nozzlePosition hn, planeOf_eq_some]

/-! ### Completing a switch (R11) -/

/-- The switches after one has completed. -/
theorem completeSwitch_switches (g : Geometry) (p q : Plane) :
    (g.completeSwitch p).switches.get q = if q = p then { g.switches.get p with pending := false } else g.switches.get q := by
  simp only [Geometry.completeSwitch, Table.get_upd, eq_comm (a := p)]
  split
  · next h => rw [h]
  · rfl

theorem switchReached_iff {s : State} {p : Plane} :
    switchReached s p = true
      ↔ (s.geo.switches.get p).pending = true ∧ ((s.geo.switches.get p).serial : Int) ≤ (s.rings.get p).retire + 1 := by
  simp [switchReached]

/-- Settles O31: the switch is reached, so the event is taken, and the copy of the staged map is read nozzle by nozzle. -/
theorem mapSwitchResult : Obligations.MapSwitchResult := by
  intro p s hs hstores hpending hreached
  obtain ⟨-, -, -, hstaged⟩ := hstores
  have hr : switchReached s p = true := switchReached_iff.mpr ⟨hpending, by omega⟩
  have hexec : exec (.mapSwitchComplete p) s = .next (finish (completeSwitch p s)) := act_of_can hr hs
  refine ⟨_, hexec, ?_, announced_of (placeNotice_feed_congr _ rfl) (by simp [completeSwitch, tell]), ?_, fun q => ?_, fun h k n => ?_⟩
  · exact unchangedBut_finish (by simp)
      (unchangedBut_trans (unchangedBut_setGeo s _ (by simp)) (unchangedBut_placeNotice _ _ (by simp)))
  · simp [completeSwitch, Geometry.completeSwitch]
  · simp [completeSwitch, completeSwitch_switches]
  · simp only [finish_geo, completeSwitch, placeNotice_geo, State.setGeo_geo, Geometry.completeSwitch]
    exact nozzleStatus_copy p _ hstaged n.isLt

end Sys2Proof.Machine
end

section
/-! # Set Nozzles and Read Nozzles (R8 to R12) -/

namespace Sys2Proof.Machine

/-! ### The run a request names -/

/-- R8, R12: the run of nozzles lies on the head: its row exists, its count is 1 to 768, and it ends at the last nozzle or before. -/
abbrev runFits (g : Geometry) (h : Port) (row : Byte) (first count : BitVec 16) : Prop :=
  row.toNat < (g.heads.get h).rows ∧ 1 ≤ count.toNat ∧ count.toNat ≤ 768 ∧ first.toNat + count.toNat ≤ (g.heads.get h).nozzles

theorem nozzleRun_of_port {g : Geometry} {port : Byte} {h : Port} (hp : port.toNat = h.val) (row : Byte) (first count : BitVec 16) :
    g.nozzleRun port row first count = if runFits g h row first count then some h else none := by
  unfold Geometry.nozzleRun
  rw [portNumber_eq_some.mpr hp]
  rfl

theorem nozzleRun_of_noPort {g : Geometry} {port : Byte} (hp : 11 < port.toNat) (row : Byte) (first count : BitVec 16) :
    g.nozzleRun port row first count = none := by
  simp only [Geometry.nozzleRun, portNumber_eq_none.mpr hp]

/-! ### Set Nozzles, test by test (R8, R9) -/

/-- The tests of Set Nozzles in order, and its two effects, for the port it names. -/
theorem ownSetNozzles_eq {port : Byte} {h : Port} (hp : port.toNat = h.val) (row : Byte) (first count : BitVec 16)
    (statuses : List Byte) (s : State) :
    ownSetNozzles port row first count statuses s =
      if runFits s.geo h row first count then
        if statuses.length ≠ count.toNat then (s, .plain .length)
        else if ∀ b ∈ statuses, b.toNat ≤ 2 then
          match s.planeOf h with
          | some p =>
            if s.job.state = .idle then
              (s.setGeo { s.geo with
                active := sparseWriteRun .live s.geo.active (nozzlePosition h row.toNat first.toNat) (statuses.map statusNamed) },
                .plain .done)
            else if (s.geo.switches.get p).pending then (s, .plain .pending)
            else (s.setGeo (s.geo.stage p (s.rings.get p).frontier h row.toNat first.toNat (statuses.map statusNamed)), .plain .done)
          | none =>
            (s.setGeo { s.geo with
              active := sparseWriteRun .live s.geo.active (nozzlePosition h row.toNat first.toNat) (statuses.map statusNamed) },
              .plain .done)
        else (s, .plain .range)
      else (s, .plain .range) := by
  rw [ownSetNozzles, nozzleRun_of_port hp, statusesOf_eq]
  by_cases hf : runFits s.geo h row first count
  · rw [if_pos hf, if_pos hf]
    by_cases hl : statuses.length ≠ count.toNat
    · simp only [if_pos hl]
    · simp only [if_neg hl]
      by_cases hb : ∀ b ∈ statuses, b.toNat ≤ 2
      · rw [if_pos hb, if_pos hb]
        cases s.planeOf h <;> rfl
      · rw [if_neg hb, if_neg hb]
  · rw [if_neg hf, if_neg hf]

/-- The immediate effect of Set Nozzles (R8): in IDLE, or on a head that is not in use. -/
theorem ownSetNozzles_atOnce {port : Byte} {h : Port} (hp : port.toNat = h.val) {row : Byte} {first count : BitVec 16}
    {statuses : List Byte} {s : State} (hf : runFits s.geo h row first count) (hl : statuses.length = count.toNat)
    (hb : ∀ b ∈ statuses, b.toNat ≤ 2) (hi : s.job.state = .idle ∨ s.planeOf h = none) :
    ownSetNozzles port row first count statuses s = (s.setGeo { s.geo with
      active := sparseWriteRun .live s.geo.active (nozzlePosition h row.toNat first.toNat) (statuses.map statusNamed) },
      .plain .done) := by
  rw [ownSetNozzles_eq hp, if_pos hf, if_neg (not_not.mpr hl), if_pos hb]
  cases hq : s.planeOf h with
  | none => rfl
  | some p => exact if_pos (hi.resolve_right (by simp [hq]))

/-- Set Nozzles on a head in use during a job (R9). -/
theorem ownSetNozzles_inJob {port : Byte} {h : Port} (hp : port.toNat = h.val) {row : Byte} {first count : BitVec 16}
    {statuses : List Byte} {s : State} {p : Plane} (hf : runFits s.geo h row first count) (hl : statuses.length = count.toNat)
    (hb : ∀ b ∈ statuses, b.toNat ≤ 2) (hj : s.job.state ≠ .idle) (hq : s.planeOf h = some p) :
    ownSetNozzles port row first count statuses s =
      if (s.geo.switches.get p).pending = true then (s, .plain .pending)
      else (s.setGeo (s.geo.stage p (s.rings.get p).frontier h row.toNat first.toNat (statuses.map statusNamed)), .plain .done) := by
  rw [ownSetNozzles_eq hp, if_pos hf, if_neg (not_not.mpr hl), if_pos hb, hq]
  exact if_neg hj

/-! ### What follows the reply (R11) -/

/-- No switch completes with a Set Nozzles in IDLE, nor with one that names a head that is not in use. -/
theorem completeStaged_atOnce {port : Byte} {h : Port} (hp : port.toNat = h.val) (x : Result) {s : State}
    (hi : s.job.state = .idle ∨ s.planeOf h = none) : completeStaged port x s = s := by
  simp only [completeStaged, portNumber_eq_some.mpr hp]
  cases hq : s.planeOf h with
  | none => rfl
  | some p => exact if_neg fun e => e.2.1 (hi.resolve_right (by simp [hq]))

/-- The switch of a Set Nozzles in a job completes with it exactly when the retire point has reached it already. -/
theorem completeStaged_inJob {port : Byte} {h : Port} (hp : port.toNat = h.val) {s : State} {p : Plane} (hj : s.job.state ≠ .idle)
    (hq : s.planeOf h = some p) :
    completeStaged port .done s = if switchReached s p = true then completeSwitch p s else s := by
  simp only [completeStaged, portNumber_eq_some.mpr hp, hq, hj, ne_eq, not_false_eq_true, true_and]

/-- A Set Nozzles that is answered DONE, on the link: its effect, the reply, and the switch that may complete after it. -/
theorem exec_setNozzles_done {tag port row : Byte} {first count : BitVec 16} {statuses : List Byte} {s u : State} (hs : ready s)
    (own : ownSetNozzles port row first count statuses s = (u, .plain .done)) :
    exec (.setNozzles tag port row first count statuses) s
      = .next (finish (completeStaged port .done (placeReply tag 0x06 (.plain .done) u))) :=
  exec_served (r := .setNozzles port row first count statuses) hs rfl own

/-- Set Nozzles in IDLE, or on a head that is not in use, on the link. -/
theorem exec_setNozzles_atOnce {tag port : Byte} {h : Port} {row : Byte} {first count : BitVec 16} {statuses : List Byte} {s : State}
    (hs : ready s) (hp : port.toNat = h.val) (hf : runFits s.geo h row first count) (hl : statuses.length = count.toNat)
    (hb : ∀ b ∈ statuses, b.toNat ≤ 2) (hi : s.job.state = .idle ∨ s.planeOf h = none) :
    exec (.setNozzles tag port row first count statuses) s =
      .next (finish (placeReply tag 0x06 (.plain .done) (s.setGeo { s.geo with
        active := sparseWriteRun .live s.geo.active (nozzlePosition h row.toNat first.toNat) (statuses.map statusNamed) }))) := by
  rw [exec_setNozzles_done hs (ownSetNozzles_atOnce hp hf hl hb hi), completeStaged_atOnce hp .done]
  exact hi

/-- A run that fits its head lies within one row of the map (R3, R7). -/
theorem row_and_run_bound {s : State} (hrec : recordsOk s) {h : Port} {row : Byte} {first count : BitVec 16}
    (hf : runFits s.geo h row first count) : row.toNat < 4 ∧ first.toNat + count.toNat ≤ 768 := by
  obtain ⟨hrow, -, -, hlast⟩ := hf
  obtain ⟨-, -, hrows, -, hnozzles, -⟩ := hrec.2.1 h
  exact ⟨by omega, by omega⟩

/-- Settles O14: the tests of R8 in order, and the active map read nozzle by nozzle after the run is written. -/
theorem setNozzlesAtOnce : Obligations.SetNozzlesAtOnce := by
  intro tag port row first count statuses s hs hrec hstores
  have refuse : ∀ x : Result, x ≠ .done → ownSetNozzles port row first count statuses s = (s, .plain x) →
      ∃ t : State, exec (.setNozzles tag port row first count statuses) s = .next t ∧ refused s t tag 0x06 x :=
    fun x hx own => exec_refused (r := .setNozzles port row first count statuses) hs rfl own (.inl hx)
  by_cases hport : 11 < port.toNat
  · obtain ⟨t, ht, hr⟩ := refuse .range (by decide) (by rw [ownSetNozzles, nozzleRun_of_noPort hport])
    exact ⟨t, ht, fun _ => hr, fun h hh => absurd h.isLt (by omega)⟩
  obtain ⟨x, hx⟩ : ∃ x : Port, port.toNat = x.val := ⟨⟨port.toNat, by omega⟩, rfl⟩
  have own := ownSetNozzles_eq hx row first count statuses s
  by_cases hf : runFits s.geo x row first count
  case neg =>
    obtain ⟨t, ht, hr⟩ := refuse .range (by decide) (own.trans (if_neg hf))
    exact ⟨t, ht, fun h => absurd h hport, forall_val_eq hx ⟨fun _ => hr, fun h => absurd h hf, fun h => absurd h hf, fun h => absurd h hf⟩⟩
  rw [if_pos hf] at own
  by_cases hl : statuses.length = count.toNat
  case neg =>
    obtain ⟨t, ht, hr⟩ := refuse .length (by decide) (own.trans (if_pos hl))
    exact ⟨t, ht, fun h => absurd h hport,
      forall_val_eq hx ⟨fun h => absurd hf h, fun _ _ => hr, fun _ h => absurd h hl, fun _ h => absurd h hl⟩⟩
  rw [if_neg (not_not.mpr hl)] at own
  by_cases hb : ∀ b ∈ statuses, b.toNat ≤ 2
  case neg =>
    obtain ⟨t, ht, hr⟩ := refuse .range (by decide) (own.trans (if_neg hb))
    exact ⟨t, ht, fun h => absurd h hport,
      forall_val_eq hx ⟨fun h => absurd hf h, fun _ h => absurd hl h, fun _ _ _ => hr, fun _ _ h => absurd h hb⟩⟩
  have valid : ¬∃ b ∈ statuses, 2 < b.toNat := fun ⟨b, hm, h⟩ => absurd (hb b hm) (by omega)
  by_cases hi : s.job.state = .idle ∨ s.geo.inUse x = false
  case neg =>
    exact ⟨_, exec_served (r := .setNozzles port row first count statuses) hs rfl rfl, fun h => absurd h hport,
      forall_val_eq hx ⟨fun h => absurd hf h, fun _ h => absurd hl h, fun _ _ h => absurd h valid, fun _ _ _ h => absurd h hi⟩⟩
  have hi' : s.job.state = .idle ∨ s.planeOf x = none := hi.imp_right planeOf_eq_none.mpr
  refine ⟨_, exec_setNozzles_atOnce hs hx hf hl hb hi', fun h => absurd h hport,
      forall_val_eq hx ⟨fun h => absurd hf h, fun _ h => absurd hl h, fun _ _ h => absurd h valid, fun _ _ _ _ =>
        ⟨unchangedBut_reply _ _ _ (by simp) (unchangedBut_setGeo s _ (by simp)), answered_of (a := .plain .done) rfl rfl, ?_, ?_⟩⟩⟩
  · simp only [finish_geo, placeReply_geo, State.setGeo_geo]
  · intro g k n
    obtain ⟨hrow, hlast⟩ := row_and_run_bound hrec hf
    simp only [finish_geo, placeReply_geo, State.setGeo_geo]
    rw [nozzleStatus_writeRun _ _ hrow (hl ▸ hlast) n.isLt, hl]

/-! ### The staged switch (R9, R11) -/

/-- The switches after one is staged: it is pending with E one above the frontier. -/
theorem stage_switches (g : Geometry) (p q : Plane) (frontier : Int) (h : Port) (row first : Nat) (xs : List NozzleStatus) :
    (g.stage p frontier h row first xs).switches.get q = if q = p then ⟨true, (frontier + 1).toNat⟩ else g.switches.get q := by
  simp only [Geometry.stage, Table.get_put, eq_comm (a := p)]

/-- The status a Set Nozzles in a job stages for a nozzle of its plane: the one it lists, or else the active one (R9). -/
def stagedStatus (s : State) (h : Port) (row first count : Nat) (statuses : List Byte) (g : Port) (k : RowIx) (n : Nat) :
    NozzleStatus :=
  if inRun h row first count g k n then statusNamed (statuses.getD (n - first) 0) else nozzleStatus s.geo.active g k.val n

/-- What R9 makes of the Geometry Store: the plane's staged statuses and its switch, and nothing else. -/
structure IsStaged (s : State) (p : Plane) (h : Port) (row first : Nat) (bs : List Byte) (g : Geometry) : Prop where
  kept : g = { s.geo with staged := g.staged, switches := g.switches }
  switches : ∀ q : Plane, g.switches.get q =
    if q = p then ⟨true, ((s.rings.get p).frontier + 1).toNat⟩ else s.geo.switches.get q
  canonical : sparseWf .live g.staged = true
  statuses : ∀ (x : Port) (k : RowIx) (n : Fin 768), nozzleStatus g.staged x k.val n.val =
    if s.planeOf x = some p then stagedStatus s h row first bs.length bs x k n.val else nozzleStatus s.geo.staged x k.val n.val

theorem stage_isStaged {s : State} {p : Plane} {h : Port} {row first : Nat} {bs : List Byte} (hq : s.planeOf h = some p)
    (hstores : storesOk s) (hr : row < 4) (hf : first + bs.length ≤ 768) :
    IsStaged s p h row first bs (s.geo.stage p (s.rings.get p).frontier h row first (bs.map statusNamed)) := by
  obtain ⟨-, -, hactive, hstaged⟩ := hstores
  refine ⟨rfl, fun q => stage_switches .., sparseWf_sparseWriteRun _ _ _ (sparseWf_sparseCopy _ _ _ hstaged), fun x k n => ?_⟩
  simp only [Geometry.stage, stagedStatus]
  rw [nozzleStatus_writeRun _ _ hr hf n.isLt, nozzleStatus_copy p _ hactive n.isLt]
  by_cases hin : inRun h row first bs.length x k n.val = true
  · obtain ⟨rfl, -⟩ : x = h ∧ k.val = row ∧ first ≤ n.val ∧ n.val < first + bs.length := of_decide_eq_true hin
    rw [if_pos hin, if_pos hin, if_pos hq]
  · rw [if_neg hin, if_neg hin]

section
variable {s : State} {p : Plane} {h : Port} {row first : Nat} {bs : List Byte} {g : Geometry}

/-- Staging moves no head. -/
theorem IsStaged.planeOf (hg : IsStaged s p h row first bs g) (x : Port) : (s.setGeo g).planeOf x = s.planeOf x := by
  rw [hg.kept]
  rfl

/-- The switch is reached exactly when the retire point is at E − 1 or above. -/
theorem IsStaged.reached_iff (hg : IsStaged s p h row first bs g) :
    switchReached (s.setGeo g) p = true ↔ (((s.rings.get p).frontier + 1).toNat : Int) ≤ (s.rings.get p).retire + 1 := by
  rw [switchReached_iff, State.setGeo_geo, hg.switches, if_pos rfl]
  exact and_iff_right rfl

/-- The active map once the staged switch has completed (R11). -/
theorem IsStaged.active_completed (hg : IsStaged s p h row first bs g) (x : Port) (k : RowIx) (n : Fin 768) :
    nozzleStatus (g.completeSwitch p).active x k.val n.val =
      if s.planeOf x = some p then stagedStatus s h row first bs.length bs x k n.val else nozzleStatus s.geo.active x k.val n.val := by
  rw [← hg.planeOf x]
  refine (nozzleStatus_copy (s := s.setGeo g) p g.active hg.canonical n.isLt).trans ?_
  rw [hg.planeOf x, hg.statuses]
  split
  · rfl
  · rw [hg.kept]

end

/-- Set Nozzles on a head in use during a job, with no switch of its plane pending, on the link (R9, R11). -/
theorem exec_setNozzles_staged {tag port : Byte} {h : Port} {row : Byte} {first count : BitVec 16} {statuses : List Byte} {s : State}
    {p : Plane} (hs : ready s) (hp : port.toNat = h.val) (hf : runFits s.geo h row first count)
    (hl : statuses.length = count.toNat) (hb : ∀ b ∈ statuses, b.toNat ≤ 2) (hj : s.job.state ≠ .idle) (hq : s.planeOf h = some p)
    (hn : ¬(s.geo.switches.get p).pending = true) :
    let g := s.geo.stage p (s.rings.get p).frontier h row.toNat first.toNat (statuses.map statusNamed)
    let v := placeReply tag 0x06 (.plain .done) (s.setGeo g)
    exec (.setNozzles tag port row first count statuses) s =
      .next (finish (if switchReached (s.setGeo g) p = true then completeSwitch p v else v)) := by
  intro g v
  rw [exec_setNozzles_done hs ((ownSetNozzles_inJob hp hf hl hb hj hq).trans (if_neg hn)),
    completeStaged_inJob (s := v) (p := p) hp hj hq]
  rfl

/-- Settles O15: PENDING while a switch is pending; otherwise the staged map and the switch are read after R9, and after R11 where
the retire point has reached E − 1. -/
theorem setNozzlesStaged : Obligations.SetNozzlesStaged := by
  intro tag port row first count statuses s h p hs hrec hstores hj hp hq hrow hc1 hc2 hlast hl hb
  have hf : runFits s.geo h row first count := ⟨hrow, hc1, hc2, hlast⟩
  obtain ⟨hrow4, hrun⟩ := row_and_run_bound hrec hf
  by_cases hpend : (s.geo.switches.get p).pending = true
  · simp only [if_pos hpend]
    exact exec_refused (r := .setNozzles port row first count statuses) hs rfl
      ((ownSetNozzles_inJob hp.symm hf hl hb hj hq).trans (if_pos hpend)) (.inl (by decide))
  simp only [if_neg hpend]
  have served := exec_setNozzles_staged (tag := tag) hs hp.symm hf hl hb hj hq hpend
  have hg := stage_isStaged hq hstores hrow4 (hl ▸ hrun)
  generalize s.geo.stage p (s.rings.get p).frontier h row.toNat first.toNat (statuses.map statusNamed) = g at served hg
  by_cases hr : (((s.rings.get p).frontier + 1).toNat : Int) ≤ (s.rings.get p).retire + 1
  · simp only [if_pos (hg.reached_iff.mpr hr)] at served
    refine ⟨_, served, ?_⟩
    simp only [hr, not_true, decide_false, true_and, if_true, finish_geo, completeSwitch, placeNotice_geo, State.setGeo_geo,
      placeReply_geo, ← hl]
    refine ⟨?_, by rw [hg.kept]; rfl, by rw [hg.kept]; rfl, by rw [hg.kept]; rfl, by rw [hg.kept]; rfl, fun q hqp => ?_, ?_,
      hg.statuses, hg.active_completed, announced_of (placeNotice_feed_congr _ rfl) (by simp [tell])⟩
    · exact unchangedBut_finish (by simp) (unchangedBut_trans (unchangedBut_setGeo s g (by simp))
        (unchangedBut_trans (unchangedBut_setFeed _ _ (by simp))
          (unchangedBut_trans (unchangedBut_setGeo _ _ (by simp)) (unchangedBut_placeNotice _ _ (by simp)))))
    · rw [completeSwitch_switches, if_neg hqp, hg.switches, if_neg hqp]
    · rw [completeSwitch_switches, if_pos rfl, hg.switches, if_pos rfl]
  · simp only [if_neg (mt hg.reached_iff.mp hr)] at served
    refine ⟨_, served, ?_⟩
    simp only [hr, not_false_eq_true, decide_true, false_and, if_false, finish_geo, State.setGeo_geo, placeReply_geo, ← hl]
    refine ⟨?_, by rw [hg.kept], by rw [hg.kept], by rw [hg.kept], by rw [hg.kept], fun q hqp => ?_, ?_,
      hg.statuses, fun x k n => by rw [hg.kept], answered_of (a := .plain .done) rfl rfl⟩
    · exact unchangedBut_reply _ _ _ (by simp) (unchangedBut_setGeo s g (by simp))
    · rw [hg.switches, if_neg hqp]
    · rw [hg.switches, if_pos rfl]

/-! ### Read Nozzles (R12) -/

/-- Read Nozzles of a run that does not fit, or of a port that does not exist. -/
theorem ownReadNozzles_range {port row : Byte} {first count : BitVec 16} {s : State}
    (h : s.geo.nozzleRun port row first count = none) : ownReadNozzles port row first count s = (s, .plain .range) := by
  simp only [ownReadNozzles, h]

/-- Read Nozzles while the switch of the head's plane is pending. -/
theorem ownReadNozzles_pending {port row : Byte} {first count : BitVec 16} {s : State} {h : Port} {p : Plane}
    (hp : port.toNat = h.val) (hf : runFits s.geo h row first count) (hq : s.planeOf h = some p)
    (hn : (s.geo.switches.get p).pending = true) :
    ownReadNozzles port row first count s = (s, ⟨.done, [1] ++ leBytes 6 (s.geo.switches.get p).serial ++ leBytes 2 count.toNat
      ++ statusBytes s.geo.active h row.toNat first.toNat count.toNat
      ++ statusBytes s.geo.staged h row.toNat first.toNat count.toNat⟩) := by
  have hw : (s.planeOf h).map s.geo.switches.get = some ⟨true, (s.geo.switches.get p).serial⟩ := by rw [hq, ← hn]; rfl
  simp only [ownReadNozzles, nozzleRun_of_port hp, if_pos hf, hw]

/-- Read Nozzles while no switch of the head's plane is pending. -/
theorem ownReadNozzles_settled {port row : Byte} {first count : BitVec 16} {s : State} {h : Port}
    (hp : port.toNat = h.val) (hf : runFits s.geo h row first count)
    (hn : ∀ p : Plane, s.planeOf h = some p → (s.geo.switches.get p).pending = false) :
    ownReadNozzles port row first count s = (s, ⟨.done, [0, 0, 0, 0, 0, 0, 0] ++ leBytes 2 count.toNat
      ++ statusBytes s.geo.active h row.toNat first.toNat count.toNat⟩) := by
  simp only [ownReadNozzles, nozzleRun_of_port hp, if_pos hf]
  cases hq : s.planeOf h with
  | none => rfl
  | some p =>
    have hw : s.geo.switches.get p = ⟨false, (s.geo.switches.get p).serial⟩ := by rw [← hn p hq]
    rw [Option.map_some, hw]
    rfl

/-- Settles O16: the three answers of Read Nozzles, none of which changes anything. -/
theorem readNozzlesResult : Obligations.ReadNozzlesResult := by
  intro tag port row first count s hs
  have answers : ∀ a : Answer, ownReadNozzles port row first count s = (s, a) →
      ∃ t : State, exec (.readNozzles tag port row first count) s = .next t ∧ unchangedBut [.feed] s t
        ∧ answered s t tag 0x07 a.result a.body := fun a own =>
    ⟨_, exec_answered (r := .readNozzles port row first count) hs rfl own (.inr rfl),
      unchangedBut_reply _ _ _ (by simp) (fun b _ => sameBlock_refl s b), answered_of rfl rfl⟩
  by_cases hport : 11 < port.toNat
  · obtain ⟨t, ht, hu, hr⟩ := answers _ (ownReadNozzles_range (nozzleRun_of_noPort hport row first count))
    exact ⟨t, ht, hu, fun _ => hr, fun h hh => absurd h.isLt (by omega)⟩
  obtain ⟨x, hx⟩ : ∃ x : Port, port.toNat = x.val := ⟨⟨port.toNat, by omega⟩, rfl⟩
  by_cases hf : runFits s.geo x row first count
  case neg =>
    obtain ⟨t, ht, hu, hr⟩ := answers _ (ownReadNozzles_range ((nozzleRun_of_port hx row first count).trans (if_neg hf)))
    exact ⟨t, ht, hu, fun h => absurd h hport, forall_val_eq hx ⟨fun _ => hr, fun h => absurd h hf, fun h => absurd h hf⟩⟩
  by_cases hn : ∀ p : Plane, s.planeOf x = some p → (s.geo.switches.get p).pending = false
  · obtain ⟨t, ht, hu, hr⟩ := answers _ (ownReadNozzles_settled hx hf hn)
    exact ⟨t, ht, hu, fun h => absurd h hport,
      forall_val_eq hx ⟨fun h => absurd hf h, fun _ p hq hp => absurd hp (by simp [hn p hq]), fun _ _ => hr⟩⟩
  · obtain ⟨p, hq, hp⟩ : ∃ p : Plane, s.planeOf x = some p ∧ (s.geo.switches.get p).pending = true := by
      simpa using hn
    obtain ⟨t, ht, hu, hr⟩ := answers _ (ownReadNozzles_pending hx hf hq hp)
    refine ⟨t, ht, hu, fun h => absurd h hport, forall_val_eq hx ⟨fun h => absurd hf h, fun _ p' hq' _ => ?_, fun _ h => absurd h hn⟩⟩
    obtain rfl : p = p' := Option.some.inj (hq.symm.trans hq')
    exact hr

end Sys2Proof.Machine
end

section
/-! # The Start Job checks (R16 to R19)

Each check in the words of Safety.lean: when a plane passes it, and what a plane that fails it reports. -/

namespace Sys2Proof.Machine

/-! ### First members of ordered lists -/

/-- A search through a list that rises by a key gives what its least member with an answer gives. -/
theorem findSome?_eq_some_of_least {α β γ : Type} [LinearOrder γ] (key : α → γ) {l : List α} {f : α → Option β} {a : α} {v : β}
    (hl : l.Pairwise (fun x y => key x < key y)) (ha : a ∈ l) (hf : f a = some v)
    (hmin : ∀ b ∈ l, key b < key a → f b = none) : l.findSome? f = some v := by
  induction l with
  | nil => simp at ha
  | cons x xs ih =>
    obtain ⟨hx, hxs⟩ := List.pairwise_cons.mp hl
    rcases List.mem_cons.mp ha with rfl | ha
    · rw [List.findSome?_cons, hf]
    · rw [List.findSome?_cons, hmin x (by simp) (hx a ha)]
      exact ih hxs ha fun b hb => hmin b (by simp [hb])

/-- The search of a rising list gives the least member that passes. -/
theorem find?_eq_some_of_least {α : Type} [LinearOrder α] {l : List α} {f : α → Bool} {a : α} (hl : l.Pairwise (· < ·)) (ha : a ∈ l)
    (hf : f a = true) (hmin : ∀ b ∈ l, b < a → f b = false) : l.find? f = some a := by
  rw [← List.findSome?_guard]
  exact findSome?_eq_some_of_least id hl ha (by simp [hf]) fun b hb hlt => by simp [hmin b hb hlt]

/-- A rising list has three members exactly when it has three that rise. -/
theorem three_le_length_iff {α : Type} [LinearOrder α] {l : List α} (hl : l.Pairwise (· < ·)) :
    3 ≤ l.length ↔ ∃ a ∈ l, ∃ b, a < b ∧ b ∈ l ∧ ∃ d, b < d ∧ d ∈ l := by
  constructor
  · intro h
    match l, hl with
    | a :: b :: d :: rest, hl =>
      simp only [List.pairwise_cons] at hl
      exact ⟨a, by simp, b, hl.1 b (by simp), by simp, d, hl.2.1 d (by simp), by simp⟩
  · rintro ⟨a, ha, b, hab, hb, d, hbd, hd⟩
    have hnodup : [a, b, d].Nodup := by simp [hab.ne, hbd.ne, (hab.trans hbd).ne]
    exact (List.subperm_of_subset hnodup (by simp [ha, hb, hd])).length_le

/-- The greatest of a list of numbers, or the number it starts from. -/
theorem foldl_max_spec (l : List Nat) (n : Nat) :
    n ≤ l.foldl max n ∧ (∀ x ∈ l, x ≤ l.foldl max n) ∧ (l.foldl max n = n ∨ l.foldl max n ∈ l) := by
  induction l generalizing n with
  | nil => simp
  | cons y ys ih =>
    obtain ⟨h1, h2, h3⟩ := ih (max n y)
    refine ⟨by simp only [List.foldl_cons]; omega, List.forall_mem_cons.mpr ⟨by simp only [List.foldl_cons]; omega, h2⟩, ?_⟩
    simp only [List.foldl_cons, List.mem_cons]
    rcases h3 with h3 | h3
    · rcases max_choice n y with h | h
      · exact .inl (h3.trans h)
      · exact .inr (.inl (h3.trans h))
    · exact .inr (.inr h3)

/-- The greatest of a list with a member is a member. -/
theorem foldl_max_mem {l : List Nat} {x : Nat} (hx : x ∈ l) : l.foldl max 0 ∈ l := by
  obtain ⟨-, h2, h3⟩ := foldl_max_spec l 0
  rcases h3 with h3 | h3
  · have : x = l.foldl max 0 := by have := h2 x hx; omega
    exact this ▸ hx
  · exact h3

/-- The check of a list of planes is a search through it. -/
theorem failOn_eq (d : CheckDetail) (f : Plane → Option Nat) (ps : List Plane) :
    failOn d f ps = ps.findSome? fun p => (f p).map fun v => ⟨d, p.val, v⟩ := by
  induction ps with
  | nil => rfl
  | cons p ps ih =>
    rw [failOn, List.findSome?_cons, ih]
    cases f p <;> rfl

/-- The check of a list of planes passes when it passes each. -/
theorem failOn_eq_none {d : CheckDetail} {f : Plane → Option Nat} {ps : List Plane} :
    failOn d f ps = none ↔ ∀ p ∈ ps, f p = none := by
  simp only [failOn_eq, List.findSome?_eq_none_iff, Option.map_eq_none_iff]

/-- The check of a rising list of planes reports the lowest that fails. -/
theorem failOn_eq_some {d : CheckDetail} {f : Plane → Option Nat} {ps : List Plane} {p : Plane} {v : Nat}
    (hl : ps.Pairwise (· < ·)) (hp : p ∈ ps) (hf : f p = some v) (hmin : ∀ q ∈ ps, q < p → f q = none) :
    failOn d f ps = some ⟨d, p.val, v⟩ := by
  rw [failOn_eq]
  exact findSome?_eq_some_of_least id hl hp (by rw [hf]; rfl) fun q hq hlt => by rw [hmin q hq hlt]; rfl

theorem allPlanes_rise : allPlanes.Pairwise (· < ·) := by decide
theorem allPorts_rise : allPorts.Pairwise (· < ·) := by decide
theorem allSeams_rise : allSeams.Pairwise (· < ·) := by decide

/-! ### Planes, heads and spans -/

theorem mem_configuredPlanes {g : Geometry} {p : Plane} : p ∈ g.configuredPlanes ↔ isUsed g p := by
  simp [Geometry.configuredPlanes, configured_iff]

theorem configuredPlanes_rise (g : Geometry) : g.configuredPlanes.Pairwise (· < ·) := allPlanes_rise.filter _

theorem inUseOn_iff {g : Geometry} {p : Plane} {h : Port} : g.inUseOn p h = true ↔ isUsed g p ∧ isOn g p h := by
  simp [Geometry.inUseOn, configured_iff, and_comm]

theorem inUse_iff {g : Geometry} {h : Port} : g.inUse h = true ↔ ∃ p : Plane, isUsed g p ∧ isOn g p h := by
  unfold Geometry.inUse isOn
  cases (g.heads.get h).plane <;> simp [configured_iff]

theorem mem_headsOn_iff {g : Geometry} {p : Plane} {h : Port} : h ∈ g.headsOn p ↔ isUsed g p ∧ isOn g p h := by
  rw [mem_headsOn, inUseOn_iff]

theorem headsOn_rise (g : Geometry) (p : Plane) : (g.headsOn p).Pairwise (· < ·) := allPorts_rise.filter _

theorem mem_covering_iff {g : Geometry} {p : Plane} {c : Nat} {h : Port} :
    h ∈ g.covering p c ↔ isUsed g p ∧ reaches g p h c := by
  simp only [Geometry.covering, List.mem_filter, mem_headsOn_iff, HeadRec.spans, decide_eq_true_iff, and_assoc]
  rfl

theorem covering_rise (g : Geometry) (p : Plane) (c : Nat) : (g.covering p c).Pairwise (· < ·) := (headsOn_rise g p).filter _

/-! ### NO_HEAD (R16) -/

/-- What NO_HEAD reports of a plane. -/
def Geometry.headlessOn (g : Geometry) (p : Plane) : Option Nat := if (g.headsOn p).isEmpty then some 0 else none

theorem headlessOn_eq_some {g : Geometry} {p : Plane} (h : isHeadless g p) : g.headlessOn p = some 0 := by
  have hn : g.headsOn p = [] := List.eq_nil_iff_forall_not_mem.mpr fun x hx => h.2 x (mem_headsOn_iff.mp hx).2
  rw [Geometry.headlessOn, hn]
  rfl

theorem headlessOn_eq_none {g : Geometry} {p : Plane} (hu : isUsed g p) : g.headlessOn p = none ↔ ¬isHeadless g p := by
  by_cases h : isHeadless g p
  · simp [headlessOn_eq_some h, h]
  · obtain ⟨x, hx⟩ : ∃ x, isOn g p x := by simpa [isHeadless, hu] using h
    have hm : x ∈ g.headsOn p := mem_headsOn_iff.mpr ⟨hu, hx⟩
    simp only [Geometry.headlessOn, List.isEmpty_iff, List.ne_nil_of_mem hm, if_false, h, not_false_eq_true]

/-! ### GAP and TRIPLE (R17) -/

theorem covering_isEmpty {g : Geometry} {p : Plane} {c : Nat} (hu : isUsed g p) :
    (g.covering p c).isEmpty = true ↔ ∀ h : Port, ¬reaches g p h c := by
  simp only [List.isEmpty_iff, List.eq_nil_iff_forall_not_mem, mem_covering_iff, and_iff_right hu]

theorem isUsed_of_lt_width {g : Geometry} {p : Plane} {c : Nat} (h : c < (g.planes.get p).width) : isUsed g p :=
  Nat.ne_of_gt (Nat.zero_lt_of_lt h)

theorem gapOn_eq_none {g : Geometry} {p : Plane} :
    g.gapOn p = none ↔ ∀ c < (g.planes.get p).width, ∃ h : Port, reaches g p h c := by
  simp only [Geometry.gapOn, List.find?_eq_none, List.mem_range]
  refine forall₂_congr fun c hc => ?_
  rw [covering_isEmpty (isUsed_of_lt_width hc)]
  push Not
  rfl

theorem gapOn_eq_some {g : Geometry} {p : Plane} {c : Nat} (h : isGap g p c) : g.gapOn p = some c := by
  obtain ⟨hc, hgap, hbelow⟩ := h
  refine find?_eq_some_of_least List.pairwise_lt_range (List.mem_range.mpr hc)
    ((covering_isEmpty (isUsed_of_lt_width hc)).mpr hgap) fun b hb hbc => ?_
  obtain ⟨x, hx⟩ := hbelow b hbc
  rw [Bool.eq_false_iff, ne_eq, covering_isEmpty (isUsed_of_lt_width hc)]
  exact fun hn => hn x hx

theorem three_le_covering {g : Geometry} {p : Plane} {c : Nat} : 3 ≤ (g.covering p c).length ↔ isTriple g p c := by
  rw [three_le_length_iff (covering_rise g p c)]
  simp only [mem_covering_iff, isTriple]
  constructor
  · rintro ⟨a, ⟨hu, ha⟩, b, hab, ⟨-, hb⟩, d, hbd, -, hd⟩
    exact ⟨hu, a, ha, b, hab, hb, d, hbd, hd⟩
  · rintro ⟨hu, a, ha, b, hab, hb, d, hbd, hd⟩
    exact ⟨a, ⟨hu, ha⟩, b, hab, ⟨hu, hb⟩, d, hbd, hu, hd⟩

/-- No head of the plane spans a column at the bound or beyond. -/
theorem lt_columnBound {g : Geometry} {p : Plane} {h : Port} {c : Nat} (hu : isUsed g p) (hr : reaches g p h c) :
    c < g.columnBound p := by
  have hm : (g.heads.get h).last + 1 ∈ (g.headsOn p).map (fun h => (g.heads.get h).last + 1) :=
    List.mem_map_of_mem (mem_headsOn_iff.mpr ⟨hu, hr.1⟩)
  have hle := (foldl_max_spec _ 0).2.1 _ hm
  rw [List.foldl_map] at hle
  exact Nat.lt_of_lt_of_le (Nat.lt_succ_of_le hr.2.2) hle

theorem isTriple_lt_bound {g : Geometry} {p : Plane} {c : Nat} (h : isTriple g p c) : c < g.columnBound p := by
  obtain ⟨hu, a, ha, -⟩ := h
  exact lt_columnBound hu ha

theorem tripleOn_eq_none {g : Geometry} {p : Plane} : g.tripleOn p = none ↔ ∀ c : Nat, ¬isTriple g p c := by
  simp only [Geometry.tripleOn, List.find?_eq_none, List.mem_range, decide_eq_true_iff, three_le_covering]
  exact ⟨fun h c hc => h c (isTriple_lt_bound hc) hc, fun h c _ => h c⟩

theorem tripleOn_eq_some {g : Geometry} {p : Plane} {c : Nat} (h : isTriple g p c) (hb : ∀ b < c, ¬isTriple g p b) :
    g.tripleOn p = some c := by
  refine find?_eq_some_of_least List.pairwise_lt_range (List.mem_range.mpr (isTriple_lt_bound h))
    (decide_eq_true (three_le_covering.mpr h)) fun b _ hbc => decide_eq_false fun h3 => hb b hbc (three_le_covering.mp h3)

/-- With records in their ranges no column beyond 19,455 is in a span (R3). -/
theorem isTriple_lt {s : State} (hrec : recordsOk s) {p : Plane} {c : Nat} (h : isTriple s.geo p c) : c < 19456 := by
  obtain ⟨-, a, ⟨-, -, hlast⟩, -⟩ := h
  obtain ⟨hfirst, -, hrows, -, hnozzles, -⟩ := hrec.2.1 a
  have hmul : (s.geo.heads.get a).rows * (s.geo.heads.get a).nozzles ≤ 4 * 768 := Nat.mul_le_mul hrows hnozzles
  simp only [lastColumn] at hlast
  omega

end Sys2Proof.Machine
end

section
/-! # SEAM, DEPTH and OFFLINE (R18, R19), and the nine checks together -/

namespace Sys2Proof.Machine

/-! ### SEAM (R18) -/

theorem names_iff {g : Geometry} {e : SeamIx} {a b : Port} : (g.seams.get e).names a b = true ↔ isNamed g e a b := by
  unfold SeamRec.names isNamed
  cases (g.seams.get e).left <;> simp

theorem isNamed_comm {g : Geometry} {e : SeamIx} {a b : Port} : isNamed g e a b ↔ isNamed g e b a := or_comm

theorem meet_iff {g : Geometry} {a b : Port} :
    g.meet a b = true ↔ (g.heads.get a).first ≤ lastColumn g b ∧ (g.heads.get b).first ≤ lastColumn g a := decide_eq_true_iff

/-- A head of a plane is the lower of a pair that meets with no entry naming it. -/
theorem isBare_iff {g : Geometry} {p : Plane} (hu : isUsed g p) {a : Port} :
    (a ∈ g.headsOn p ∧ ((g.headsOn p).any fun b =>
      decide (a.val < b.val) && g.meet a b && !allSeams.any (fun e => (g.seams.get e).names a b)) = true)
      ↔ ∃ b : Port, isBare g p a b := by
  simp only [List.any_eq_true, Bool.and_eq_true, decide_eq_true_iff, meet_iff, Bool.not_eq_true', List.any_eq_false,
    mem_allSeams, true_implies, names_iff, mem_headsOn_iff, and_iff_right hu]
  constructor
  · rintro ⟨ha, b, hb, ⟨hlt, h1, h2⟩, hn⟩
    exact ⟨b, ha, hb, hlt, h1, h2, hn⟩
  · rintro ⟨b, ha, hb, hlt, h1, h2, hn⟩
    exact ⟨ha, b, hb, ⟨hlt, h1, h2⟩, hn⟩

theorem unseamedPair_eq_none {g : Geometry} {p : Plane} (hu : isUsed g p) :
    g.unseamedPair p = none ↔ ∀ a b : Port, ¬isBare g p a b := by
  rw [Geometry.unseamedPair, List.find?_eq_none]
  refine forall_congr' fun a => ?_
  rw [← not_and, isBare_iff hu, not_exists]

theorem unseamedPair_eq_some {g : Geometry} {p : Plane} (hu : isUsed g p) {a b : Port} (h : isBare g p a b)
    (hmin : ∀ a' < a, ∀ b' : Port, ¬isBare g p a' b') : g.unseamedPair p = some a := by
  obtain ⟨hm, hf⟩ := (isBare_iff hu).mpr ⟨b, h⟩
  refine find?_eq_some_of_least (headsOn_rise g p) hm hf fun x hx hlt => ?_
  rw [Bool.eq_false_iff]
  intro hx'
  obtain ⟨y, hy⟩ := (isBare_iff hu).mp ⟨hx, hx'⟩
  exact hmin x hlt y hy

theorem isBad_iff {g : Geometry} {p : Plane} (hu : isUsed g p) {e : SeamIx} :
    (g.seamTouches p (g.seams.get e) && g.seamBad p (g.seams.get e)) = true ↔ isBad g p e := by
  unfold Geometry.seamTouches Geometry.seamBad isBad
  cases hl : (g.seams.get e).left with
  | none => simp
  | some l =>
    simp only [Bool.and_eq_true, Bool.or_eq_true, Bool.not_eq_true', decide_eq_true_iff, beq_iff_eq,
      inUseOn_iff, and_iff_right hu, Bool.eq_false_iff, ne_eq, Option.mem_some, exists_eq_left', not_and_or, or_assoc]
    rfl

theorem isTwice_iff {g : Geometry} {e : SeamIx} :
    (g.seamTakesPart (g.seams.get e) && allSeams.any fun e' => decide (e.val < e'.val) &&
      (match (g.seams.get e).left with | some l => (g.seams.get e').names l (g.seams.get e).right | none => false)) = true
      ↔ isTwice g e := by
  unfold Geometry.seamTakesPart isTwice
  cases hl : (g.seams.get e).left with
  | none => simp
  | some l =>
    simp only [Bool.and_eq_true, Bool.or_eq_true, List.any_eq_true, decide_eq_true_iff, names_iff, inUse_iff, mem_allSeams, true_and,
      Option.mem_some, exists_eq_left']
    simp only [and_or_left, exists_or]
    rfl

theorem lowPort_eq {g : Geometry} {e : SeamIx} (h : (g.seams.get e).left ≠ none) : (g.seams.get e).lowPort = lowerPort g e := by
  unfold SeamRec.lowPort lowerPort
  cases hl : (g.seams.get e).left with
  | none => exact absurd hl h
  | some l => rfl

theorem badSeam_eq_none {g : Geometry} {p : Plane} (hu : isUsed g p) : g.badSeam p = none ↔ ∀ e : SeamIx, ¬isBad g p e := by
  simp only [Geometry.badSeam, List.find?_eq_none, mem_allSeams, true_implies, isBad_iff hu]

theorem badSeam_eq_some {g : Geometry} {p : Plane} (hu : isUsed g p) {e : SeamIx} (h : isBad g p e) (hmin : ∀ e' < e, ¬isBad g p e') :
    g.badSeam p = some e :=
  find?_eq_some_of_least allSeams_rise (mem_allSeams e) ((isBad_iff hu).mpr h) fun x _ hx =>
    Bool.eq_false_iff.mpr fun hb => hmin x hx ((isBad_iff hu).mp hb)

theorem doubleSeam_eq_none {g : Geometry} : g.doubleSeam = none ↔ ∀ e : SeamIx, ¬isTwice g e := by
  simp only [Geometry.doubleSeam, List.find?_eq_none, mem_allSeams, true_implies]
  exact forall_congr' fun e => not_congr isTwice_iff

theorem doubleSeam_eq_some {g : Geometry} {e : SeamIx} (h : isTwice g e) (hmin : ∀ e' < e, ¬isTwice g e') :
    g.doubleSeam = some e :=
  find?_eq_some_of_least allSeams_rise (mem_allSeams e) (isTwice_iff.mpr h) fun x _ hx =>
    Bool.eq_false_iff.mpr fun hb => hmin x hx (isTwice_iff.mp hb)

theorem seamOn_eq_none {g : Geometry} {p : Plane} (hu : isUsed g p) : g.seamOn p = none ↔ isSewn g p := by
  rw [isSewn, ← unseamedPair_eq_none hu, ← badSeam_eq_none hu, ← doubleSeam_eq_none, Geometry.seamOn]
  cases g.unseamedPair p <;> cases g.badSeam p <;> simp

/-- The bare pair that a plane reports first (R18 condition 1). -/
theorem seamOn_of_isBare {g : Geometry} {p : Plane} (hu : isUsed g p) {a b : Port} (h : isBare g p a b)
    (hmin : ∀ a' < a, ∀ b' : Port, ¬isBare g p a' b') : g.seamOn p = some a.val := by
  rw [Geometry.seamOn, unseamedPair_eq_some hu h hmin]

/-- The bad entry that a plane reports next (R18 condition 2). -/
theorem seamOn_of_isBad {g : Geometry} {p : Plane} (hu : isUsed g p) (hn : ∀ a b : Port, ¬isBare g p a b) {e : SeamIx}
    (h : isBad g p e) (hmin : ∀ e' < e, ¬isBad g p e') : g.seamOn p = some (lowerPort g e) := by
  have hl : (g.seams.get e).left ≠ none := fun hn => by simp [isBad, hn] at h
  rw [Geometry.seamOn, (unseamedPair_eq_none hu).mpr hn, badSeam_eq_some hu h hmin, ← lowPort_eq hl]

/-- The pair named twice that a plane reports last (R18 condition 3). -/
theorem seamOn_of_isTwice {g : Geometry} {p : Plane} (hu : isUsed g p) (hn : ∀ a b : Port, ¬isBare g p a b)
    (hb : ∀ e : SeamIx, ¬isBad g p e) {e : SeamIx} (h : isTwice g e) (hmin : ∀ e' < e, ¬isTwice g e') :
    g.seamOn p = some (lowerPort g e) := by
  have hl : (g.seams.get e).left ≠ none := fun hn => by simp [isTwice, hn] at h
  rw [Geometry.seamOn, (unseamedPair_eq_none hu).mpr hn, (badSeam_eq_none hu).mpr hb, doubleSeam_eq_some h hmin, ← lowPort_eq hl]
  rfl

/-! ### DEPTH (R19) -/

theorem mem_offsetsOf {g : Geometry} {hs : List Port} {x : Nat} :
    x ∈ g.offsetsOf hs ↔ ∃ h ∈ hs, ∃ k : RowIx, k.val < (g.heads.get h).rows ∧ offsetOf g h k = x := by
  simp only [Geometry.offsetsOf, HeadRec.offsets, List.mem_flatMap, List.mem_map, List.mem_filter, mem_allRows, true_and,
    decide_eq_true_iff]
  rfl

theorem mem_planeOffsets {g : Geometry} {p : Plane} {x : Nat} :
    x ∈ g.offsetsOf (g.headsOn p) ↔ ∃ (h : Port) (k : RowIx), hasRow g p h k ∧ offsetOf g h k = x := by
  simp only [mem_offsetsOf, mem_headsOn_iff, hasRow]
  constructor
  · rintro ⟨h, ⟨hu, ho⟩, k, hk, e⟩; exact ⟨h, k, ⟨hu, ho, hk⟩, e⟩
  · rintro ⟨h, k, ⟨hu, ho, hk⟩, e⟩; exact ⟨h, ⟨hu, ho⟩, k, hk, e⟩

theorem mem_usedOffsets {g : Geometry} {x : Nat} :
    x ∈ g.offsetsOf g.usedHeads ↔ ∃ (q : Plane) (h : Port) (k : RowIx), hasRow g q h k ∧ offsetOf g h k = x := by
  simp only [mem_offsetsOf, Geometry.usedHeads, List.mem_filter, mem_allPorts, true_and, inUse_iff, hasRow]
  constructor
  · rintro ⟨h, ⟨q, hu, ho⟩, k, hk, e⟩; exact ⟨q, h, k, ⟨hu, ho, hk⟩, e⟩
  · rintro ⟨q, h, k, ⟨hu, ho, hk⟩, e⟩; exact ⟨h, ⟨q, hu, ho⟩, k, hk, e⟩

/-- The least offset of a row in use (R19). -/
theorem dMin_spec {g : Geometry} {q : Plane} {f : Port} {k : RowIx} (h : hasRow g q f k) :
    g.dMin ≤ offsetOf g f k ∧ ∃ (q' : Plane) (f' : Port) (k' : RowIx), hasRow g q' f' k' ∧ offsetOf g f' k' = g.dMin := by
  have hm := mem_usedOffsets.mpr ⟨q, f, k, h, rfl⟩
  obtain ⟨m, hmin⟩ := Option.isSome_iff_exists.mp (List.isSome_min?_of_mem hm)
  have hd : g.dMin = m := by rw [Geometry.dMin, hmin]; rfl
  obtain ⟨hmem, hle⟩ := List.min?_eq_some_iff.mp hmin
  exact hd ▸ ⟨hle _ hm, mem_usedOffsets.mp hmem⟩

/-- The greatest offset of a row of a plane (R19). -/
theorem planeMax_spec {g : Geometry} {p : Plane} {h : Port} {j : RowIx} (hr : hasRow g p h j) :
    offsetOf g h j ≤ (g.offsetsOf (g.headsOn p)).foldl max 0
      ∧ ∃ (h' : Port) (j' : RowIx), hasRow g p h' j' ∧ offsetOf g h' j' = (g.offsetsOf (g.headsOn p)).foldl max 0 := by
  have hm := mem_planeOffsets.mpr ⟨h, j, hr, rfl⟩
  exact ⟨(foldl_max_spec _ 0).2.1 _ hm, mem_planeOffsets.mp (foldl_max_mem hm)⟩

/-- A ring of the least depth or more is not shallow. -/
theorem not_isShallow_of_leastDepth_le {s : State} {p : Plane} (h : s.geo.leastDepth p ≤ s.memory.depth p) : ¬isShallow s p := by
  rintro ⟨x, j, hx, q, f, k, hf, hlt⟩
  have h1 := (planeMax_spec hx).1
  have h2 := (dMin_spec hf).1
  simp only [Geometry.leastDepth] at h
  omega

/-- A ring below the least depth of a plane with a row is shallow. -/
theorem isShallow_of_lt_leastDepth {s : State} {p : Plane} {x : Port} {j : RowIx} (hx : hasRow s.geo p x j)
    (h : s.memory.depth p < s.geo.leastDepth p) : isShallow s p := by
  obtain ⟨h', j', hr, hmax⟩ := (planeMax_spec hx).2
  obtain ⟨q, f, k, hf, hmin⟩ := (dMin_spec hx).2
  refine ⟨h', j', hr, q, f, k, hf, ?_⟩
  simp only [Geometry.leastDepth] at h
  omega

/-- The depth R19 asks for, from the rows that set it. -/
theorem leastDepth_eq {g : Geometry} {p q : Plane} {h f : Port} {j k : RowIx} (hr : hasRow g p h j)
    (hmax : ∀ (h' : Port) (j' : RowIx), hasRow g p h' j' → offsetOf g h' j' ≤ offsetOf g h j) (hf : hasRow g q f k)
    (hmin : ∀ (q' : Plane) (f' : Port) (k' : RowIx), hasRow g q' f' k' → offsetOf g f k ≤ offsetOf g f' k') :
    g.leastDepth p = offsetOf g h j - offsetOf g f k + 2 := by
  obtain ⟨hle, h', j', hr', he⟩ := planeMax_spec hr
  obtain ⟨hge, q', f', k', hf', he'⟩ := dMin_spec hf
  have h1 := hmax h' j' hr'
  have h2 := hmin q' f' k' hf'
  have h3 := hmin p h j hr
  simp only [Geometry.leastDepth]
  omega

end Sys2Proof.Machine
end

section
/-! # The nine Start Job checks in order (R16), and what they give -/

namespace Sys2Proof.Machine

/-! ### DEPTH and OFFLINE of a plane -/

/-- What DEPTH reports of a plane (R19). -/
def State.shallowOn (s : State) (p : Plane) : Option Nat :=
  if s.memory.depth p < s.geo.leastDepth p then some (s.geo.leastDepth p) else none

/-- What OFFLINE reports of a plane (R16). -/
def State.awayOn (s : State) (p : Plane) : Option Nat :=
  ((s.geo.headsOn p).find? (fun h => (s.ports.get h).state == .offline)).map (fun h => h.val)

theorem shallowOn_eq_none {s : State} {p : Plane} {x : Port} {j : RowIx} (hr : hasRow s.geo p x j) :
    s.shallowOn p = none ↔ ¬isShallow s p := by
  unfold State.shallowOn
  by_cases h : s.memory.depth p < s.geo.leastDepth p
  · simp [h, isShallow_of_lt_leastDepth hr h]
  · simp [h, not_isShallow_of_leastDepth_le (Nat.le_of_not_lt h)]

theorem awayOn_eq_none {s : State} {p : Plane} : s.awayOn p = none ↔ ∀ h : Port, ¬isAway s p h := by
  simp only [State.awayOn, Option.map_eq_none_iff, List.find?_eq_none, mem_headsOn_iff, beq_iff_eq, isAway, and_imp, not_and]

theorem awayOn_eq_some {s : State} {p : Plane} {h : Port} (ha : isAway s p h) (hmin : ∀ h' < h, ¬isAway s p h') :
    s.awayOn p = some h.val := by
  obtain ⟨hu, ho, hoff⟩ := ha
  have hfind : (s.geo.headsOn p).find? (fun h => (s.ports.get h).state == .offline) = some h :=
    find?_eq_some_of_least (headsOn_rise _ _) (mem_headsOn_iff.mpr ⟨hu, ho⟩) (by rw [hoff]; rfl) fun x hx hlt =>
      Bool.eq_false_iff.mpr fun e => hmin x hlt ⟨hu, (mem_headsOn_iff.mp hx).2, beq_iff_eq.mp e⟩
  rw [State.awayOn, hfind]
  rfl

/-- A configured plane with a head has a row when the records lie in their ranges (R3). -/
theorem exists_hasRow {s : State} (hrec : recordsOk s) {p : Plane} (hu : isUsed s.geo p) (hh : ¬isHeadless s.geo p) :
    ∃ x : Port, hasRow s.geo p x 0 := by
  obtain ⟨x, hx⟩ : ∃ x, isOn s.geo p x := by
    by_contra hn
    exact hh ⟨hu, not_exists.mp hn⟩
  exact ⟨x, hu, hx, (hrec.2.1 x).2.1⟩

/-! ### The checks by their codes -/

/-- The check of R16 that a detail code names. -/
def startTest (s : State) : CheckDetail → Option CheckFailure
  | .noPlane => if s.geo.configuredPlanes.isEmpty then some ⟨.noPlane, 0, 0⟩ else none
  | .noHead => failOn .noHead s.geo.headlessOn s.geo.configuredPlanes
  | .noMotion => if s.motion.ratio.isNone then some ⟨.noMotion, 0, 0⟩ else none
  | .noPlan => if s.memory.plan.isNone then some ⟨.noPlan, 0, 0⟩ else none
  | .gap => failOn .gap s.geo.gapOn s.geo.configuredPlanes
  | .triple => failOn .triple s.geo.tripleOn s.geo.configuredPlanes
  | .seam => failOn .seam s.geo.seamOn s.geo.configuredPlanes
  | .depth => failOn .depth s.shallowOn s.geo.configuredPlanes
  | .offline => failOn .offline s.awayOn s.geo.configuredPlanes

/-- The detail codes in their order. -/
def allDetails : List CheckDetail := [.noPlane, .noHead, .noMotion, .noPlan, .gap, .triple, .seam, .depth, .offline]

theorem mem_allDetails (d : CheckDetail) : d ∈ allDetails := by cases d <;> decide

theorem startCheck_eq (s : State) : startCheck s = allDetails.findSome? (startTest s) := rfl

/-- The checks are taken in the order of their codes: the first that fails decides. -/
theorem startCheck_eq_some {s : State} {d : CheckDetail} {f : CheckFailure} (h : startTest s d = some f)
    (hb : ∀ d' : CheckDetail, d'.code < d.code → startTest s d' = none) : startCheck s = some f :=
  findSome?_eq_some_of_least CheckDetail.code (by decide) (mem_allDetails d) h fun d' _ => hb d'

theorem startCheck_eq_none {s : State} : startCheck s = none ↔ ∀ d : CheckDetail, startTest s d = none := by
  rw [startCheck_eq, List.findSome?_eq_none_iff]
  exact forall_congr' fun d => forall_prop_of_true (mem_allDetails d)

theorem CheckDetail.code_injective {d e : CheckDetail} (h : d.code = e.code) : d = e := by
  cases d <;> cases e <;> simp_all [CheckDetail.code]

/-- The checks up to one pass when those before it do and it does. -/
theorem tests_upTo {P : CheckDetail → Prop} (d : CheckDetail) :
    (∀ e : CheckDetail, e.code < d.code + 1 → P e) ↔ (∀ e : CheckDetail, e.code < d.code → P e) ∧ P d := by
  refine ⟨fun h => ⟨fun e he => h e (by omega), h d (by omega)⟩, fun ⟨h, hd⟩ e hle => ?_⟩
  rcases Nat.lt_succ_iff_lt_or_eq.mp hle with hlt | heq
  · exact h e hlt
  · exact CheckDetail.code_injective heq ▸ hd

/-! ### Each check in the words of the statements -/

theorem test_noPlane (s : State) : startTest s .noPlane = none ↔ ∃ p : Plane, isUsed s.geo p := by
  simp only [startTest, ite_eq_right_iff, reduceCtorEq, imp_false, List.isEmpty_iff]
  refine ⟨fun h => ?_, fun ⟨p, hp⟩ => List.ne_nil_of_mem (mem_configuredPlanes.mpr hp)⟩
  obtain ⟨p, hp⟩ := List.exists_mem_of_ne_nil _ h
  exact ⟨p, mem_configuredPlanes.mp hp⟩

theorem test_noHead (s : State) : startTest s .noHead = none ↔ ∀ p : Plane, ¬isHeadless s.geo p := by
  simp only [startTest, failOn_eq_none, mem_configuredPlanes]
  exact forall_congr' fun p => ⟨fun h hn => (headlessOn_eq_none hn.1).mp (h hn.1) hn, fun h hu => (headlessOn_eq_none hu).mpr h⟩

theorem test_noMotion (s : State) : startTest s .noMotion = none ↔ s.motion.ratio ≠ none := by
  simp [startTest]

theorem test_noPlan (s : State) : startTest s .noPlan = none ↔ s.memory.plan ≠ none := by
  simp [startTest]

theorem test_gap (s : State) :
    startTest s .gap = none ↔ ∀ p : Plane, ∀ c < (s.geo.planes.get p).width, ∃ h : Port, reaches s.geo p h c := by
  simp only [startTest, failOn_eq_none, mem_configuredPlanes, gapOn_eq_none]
  exact forall_congr' fun p => ⟨fun h c hc => h (isUsed_of_lt_width hc) c hc, fun h _ => h⟩

theorem test_triple (s : State) : startTest s .triple = none ↔ ∀ (p : Plane) (c : Nat), ¬isTriple s.geo p c := by
  simp only [startTest, failOn_eq_none, mem_configuredPlanes, tripleOn_eq_none]
  exact forall_congr' fun p => ⟨fun h c hc => h hc.1 c hc, fun h _ => h⟩

theorem test_seam (s : State) : startTest s .seam = none ↔ ∀ p : Plane, isUsed s.geo p → isSewn s.geo p := by
  simp only [startTest, failOn_eq_none, mem_configuredPlanes]
  exact forall₂_congr fun p hu => seamOn_eq_none hu

theorem test_depth {s : State} (hrec : recordsOk s) (hh : ∀ p : Plane, ¬isHeadless s.geo p) :
    startTest s .depth = none ↔ ∀ p : Plane, ¬isShallow s p := by
  simp only [startTest, failOn_eq_none, mem_configuredPlanes]
  refine forall_congr' fun p => ⟨fun h hs => ?_, fun h hu => ?_⟩
  · obtain ⟨x, j, hr, -⟩ := id hs
    exact (shallowOn_eq_none hr).mp (h hr.1) hs
  · obtain ⟨x, hx⟩ := exists_hasRow hrec hu (hh p)
    exact (shallowOn_eq_none hx).mpr h

theorem test_offline (s : State) : startTest s .offline = none ↔ ∀ (p : Plane) (h : Port), ¬isAway s p h := by
  simp only [startTest, failOn_eq_none, mem_configuredPlanes, awayOn_eq_none]
  exact forall_congr' fun p => ⟨fun h x hx => h hx.1 x hx, fun h _ => h⟩

/-! ### The first checks together -/

theorem no_test_before (s : State) : ∀ d : CheckDetail, d.code < 1 → startTest s d = none :=
  fun d hd => absurd hd (by cases d <;> decide)

theorem passes1_iff (s : State) : (∃ p : Plane, isUsed s.geo p) ↔ ∀ d : CheckDetail, d.code < 2 → startTest s d = none := by
  rw [← test_noPlane]
  exact (and_iff_right (no_test_before s)).symm.trans (tests_upTo .noPlane).symm

theorem passes2_iff (s : State) : ((∃ p : Plane, isUsed s.geo p) ∧ ∀ p : Plane, ¬isHeadless s.geo p)
    ↔ ∀ d : CheckDetail, d.code < 3 → startTest s d = none := by
  rw [passes1_iff, ← test_noHead]
  exact (tests_upTo .noHead).symm

theorem passes3_iff (s : State) : (((∃ p : Plane, isUsed s.geo p) ∧ ∀ p : Plane, ¬isHeadless s.geo p) ∧ s.motion.ratio ≠ none)
    ↔ ∀ d : CheckDetail, d.code < 4 → startTest s d = none := by
  rw [passes2_iff, ← test_noMotion]
  exact (tests_upTo .noMotion).symm

theorem passes4_iff (s : State) : passes4 s ↔ ∀ d : CheckDetail, d.code < 5 → startTest s d = none := by
  rw [passes4, ← and_assoc, ← and_assoc, passes3_iff, ← test_noPlan]
  exact (tests_upTo .noPlan).symm

theorem passes5_iff (s : State) : passes5 s ↔ ∀ d : CheckDetail, d.code < 6 → startTest s d = none := by
  rw [passes5, passes4_iff, ← test_gap]
  exact (tests_upTo .gap).symm

theorem passes6_iff {s : State} (hrec : recordsOk s) :
    passes6 s ↔ ∀ d : CheckDetail, d.code < 7 → startTest s d = none := by
  have htriple : (∀ p : Plane, ∀ c < 19456, ¬isTriple s.geo p c) ↔ startTest s .triple = none := by
    rw [test_triple]
    exact forall_congr' fun p => ⟨fun h c hc => h c (isTriple_lt hrec hc) hc, fun h c _ => h c⟩
  rw [passes6, passes5_iff, htriple]
  exact (tests_upTo .triple).symm

theorem passes7_iff {s : State} (hrec : recordsOk s) :
    passes7 s ↔ ∀ d : CheckDetail, d.code < 8 → startTest s d = none := by
  rw [passes7, passes6_iff hrec, ← test_seam]
  exact (tests_upTo .seam).symm

theorem passes8_iff {s : State} (hrec : recordsOk s) :
    passes8 s ↔ ∀ d : CheckDetail, d.code < 9 → startTest s d = none := by
  have hdepth : passes8 s ↔ passes7 s ∧ startTest s .depth = none :=
    and_congr_right fun h7 => (test_depth hrec h7.1.1.1.2.1).symm
  rw [hdepth, passes7_iff hrec]
  exact (tests_upTo .depth).symm

/-- All nine checks pass, in the words of the statements. -/
theorem startCheck_eq_none_iff {s : State} (hrec : recordsOk s) :
    startCheck s = none ↔ passes8 s ∧ ∀ (p : Plane) (h : Port), ¬isAway s p h := by
  rw [startCheck_eq_none, passes8_iff hrec, ← test_offline]
  refine Iff.trans ?_ (tests_upTo .offline)
  exact forall_congr' fun d => ⟨fun h _ => h, fun h => h (by cases d <;> decide)⟩

/-! ### The reply of a check that fails -/

/-- A Start Job in IDLE whose checks fail, on the link (R149). -/
theorem exec_startJob_fails {tag : Byte} {s : State} (hs : ready s) (hj : s.job.state = .idle) {d : CheckDetail} {plane value : Nat}
    (ht : startTest s d = some ⟨d, plane, value⟩) (hb : ∀ e : CheckDetail, e.code < d.code → startTest s e = none) :
    ∃ t : State, exec (.startJob tag) s = .next t ∧ unchangedBut [.feed] s t
      ∧ answered s t tag 0x15 .check (leBytes 1 d.code ++ leBytes 1 plane ++ leBytes 2 value) := by
  have own : ownStartJob s = (s, checkAnswer ⟨d, plane, value⟩) := by
    simp only [ownStartJob, hj, ne_eq, not_true, if_false, startCheck_eq_some ht hb]
  exact ⟨_, exec_answered (r := .startJob) hs rfl own (.inl (by simp [checkAnswer])),
    unchangedBut_reply _ _ _ (by simp) (fun b _ => sameBlock_refl s b), answered_of (a := checkAnswer ⟨d, plane, value⟩) rfl rfl⟩

/-- A Start Job in IDLE of which a plane is the lowest that fails the check reached, on the link. -/
theorem exec_startJob_failsOn {tag : Byte} {s : State} (hs : ready s) (hj : s.job.state = .idle) {d : CheckDetail} {p : Plane}
    {value : Nat} {f : Plane → Option Nat} (hd : startTest s d = failOn d f s.geo.configuredPlanes)
    (hb : ∀ e : CheckDetail, e.code < d.code → startTest s e = none) (hu : isUsed s.geo p) (hf : f p = some value)
    (hmin : ∀ q < p, isUsed s.geo q → f q = none) :
    ∃ t : State, exec (.startJob tag) s = .next t ∧ unchangedBut [.feed] s t
      ∧ answered s t tag 0x15 .check (leBytes 1 d.code ++ leBytes 1 p.val ++ leBytes 2 value) :=
  exec_startJob_fails hs hj (hd.trans (failOn_eq_some (configuredPlanes_rise _) (mem_configuredPlanes.mpr hu) hf fun q hq hlt =>
    hmin q hlt (mem_configuredPlanes.mp hq))) hb

/-- Settles O25: the checks that come before pass, and the check reached reports its lowest plane. -/
theorem startChecksInOrder : Obligations.StartChecksInOrder := by
  intro tag s hs hj
  refine ⟨fun hn => ?_, fun p hp hmin => ?_, fun hu hh hm => ?_, fun hu hh hm hl => ?_, fun h4 p c hgap hmin => ?_,
    fun hrec h5 p c hc ht hb hmin => ?_, fun hrec h6 p hu hmin => ?_, fun hrec h7 p hp hmin h j hr hmax q f k hf hleast => ?_,
    fun hrec h8 p h ha hb hmin => ?_, fun hrec => (startCheck_eq_none_iff hrec).symm,
    fun hnone => (test_offline s).mp (startCheck_eq_none.mp hnone .offline)⟩
  · have hnil : s.geo.configuredPlanes = [] :=
      List.eq_nil_iff_forall_not_mem.mpr fun p hp => hn p (mem_configuredPlanes.mp hp)
    exact exec_startJob_fails (d := .noPlane) hs hj (if_pos (List.isEmpty_iff.mpr hnil)) (no_test_before s)
  · exact exec_startJob_failsOn (d := .noHead) hs hj rfl ((passes1_iff s).mp ⟨p, hp.1⟩) hp.1 (headlessOn_eq_some hp)
      fun q hq hu => (headlessOn_eq_none hu).mpr (hmin q hq)
  · exact exec_startJob_fails (d := .noMotion) hs hj (if_pos (Option.isNone_iff_eq_none.mpr hm)) ((passes2_iff s).mp ⟨hu, hh⟩)
  · exact exec_startJob_fails (d := .noPlan) hs hj (if_pos (Option.isNone_iff_eq_none.mpr hl)) ((passes3_iff s).mp ⟨⟨hu, hh⟩, hm⟩)
  · exact exec_startJob_failsOn (d := .gap) hs hj rfl ((passes4_iff s).mp h4) (isUsed_of_lt_width hgap.1) (gapOn_eq_some hgap)
      fun q hq _ => gapOn_eq_none.mpr (hmin q hq)
  · exact exec_startJob_failsOn (d := .triple) hs hj rfl ((passes5_iff s).mp h5) ht.1 (tripleOn_eq_some ht hb)
      fun q hq _ => tripleOn_eq_none.mpr fun b hb => hmin q hq b (isTriple_lt hrec hb) hb
  · have failsWith := fun {value : Nat} (hf : s.geo.seamOn p = some value) =>
      exec_startJob_failsOn (tag := tag) (d := .seam) hs hj rfl ((passes6_iff hrec).mp h6) hu hf
        fun q hq hq' => (seamOn_eq_none hq').mpr (hmin q hq hq')
    exact ⟨fun a b hab ha => failsWith (seamOn_of_isBare hu hab ha),
      fun hn e he hleast => failsWith (seamOn_of_isBad hu hn he hleast),
      fun hn hb e he hleast => failsWith (seamOn_of_isTwice hu hn hb he hleast)⟩
  · have hlt : s.memory.depth p < s.geo.leastDepth p := Nat.lt_of_not_le fun hle => not_isShallow_of_leastDepth_le hle hp
    refine exec_startJob_failsOn (d := .depth) hs hj rfl ((passes7_iff hrec).mp h7) hr.1 ?_ fun q' hq' hu' => ?_
    · rw [State.shallowOn, if_pos hlt, leastDepth_eq hr hmax hf hleast]
    · obtain ⟨x, hx⟩ := exists_hasRow hrec hu' (h7.1.1.1.2.1 q')
      exact (shallowOn_eq_none hx).mpr (hmin q' hq')
  · exact exec_startJob_failsOn (d := .offline) hs hj rfl ((passes8_iff hrec).mp h8) ha.1 (awayOn_eq_some ha hb)
      fun q hq _ => awayOn_eq_none.mpr (hmin q hq)

/-! ### What the checks give (R17 to R19) -/

/-- R18: an entry that names two heads of a sewn plane joins them: its right head begins inside the left one and ends beyond it, and
the overlap is at most 64 columns wide. -/
structure Joins (g : Geometry) (e : SeamIx) (l : Port) : Prop where
  begins : (g.heads.get l).first < (g.heads.get (g.seams.get e).right).first
  meets : (g.heads.get (g.seams.get e).right).first ≤ lastColumn g l
  ends : lastColumn g l < lastColumn g (g.seams.get e).right
  narrow : lastColumn g l - (g.heads.get (g.seams.get e).right).first + 1 ≤ 64

theorem joins_of_not_isBad {g : Geometry} {p : Plane} {e : SeamIx} {l : Port} (hl : (g.seams.get e).left = some l)
    (ho : isOn g p l) (hb : ¬isBad g p e) : Joins g e l := by
  have hgood := fun fault => hb ⟨l, hl, .inl ho, fault⟩
  simp only [imp_false, not_or, not_lt, not_le] at hgood
  obtain ⟨-, -, hbegins, hmeets, hends, hnarrow⟩ := hgood
  exact ⟨hbegins, hmeets, hends, hnarrow⟩

/-- The left head and the right head of an entry that names two heads over a column. -/
theorem exists_left_of_isNamed {g : Geometry} {p : Plane} {e : SeamIx} {a b : Port} {c : Nat} (h : isNamed g e a b)
    (ha : reaches g p a c) (hb : reaches g p b c) :
    ∃ l : Port, (g.seams.get e).left = some l
      ∧ ((l = a ∧ (g.seams.get e).right = b) ∨ (l = b ∧ (g.seams.get e).right = a))
      ∧ reaches g p l c ∧ reaches g p (g.seams.get e).right c := by
  rcases h with ⟨hl, hr⟩ | ⟨hl, hr⟩
  · exact ⟨a, hl, .inl ⟨rfl, hr⟩, ha, hr ▸ hb⟩
  · exact ⟨b, hl, .inr ⟨rfl, hr⟩, hb, hr ▸ ha⟩

/-- Two heads of a sewn plane that meet are named by one entry and no other. -/
theorem exists_unique_seam {g : Geometry} {p : Plane} {a b : Port} {c : Nat} (hu : isUsed g p) (hs : isSewn g p) (hab : a < b)
    (ha : reaches g p a c) (hb : reaches g p b c) : ∃ e : SeamIx, isNamed g e a b ∧ ∀ d : SeamIx, isNamed g d a b → d = e := by
  obtain ⟨hbare, -, htwice⟩ := hs
  have notTwice : ∀ d e : SeamIx, d < e → isNamed g d a b → ¬isNamed g e a b := by
    intro d e hlt hd he
    rcases hd with ⟨hl, hr⟩ | ⟨hl, hr⟩
    · exact htwice d ⟨a, hl, ⟨p, hu, .inl ha.1⟩, e, hlt, hr ▸ he⟩
    · exact htwice d ⟨b, hl, ⟨p, hu, .inl hb.1⟩, e, hlt, hr ▸ isNamed_comm.mp he⟩
  have hnamed : ∃ e : SeamIx, isNamed g e a b := by
    by_contra hn
    exact hbare a b ⟨ha.1, hb.1, hab, ha.2.1.trans hb.2.2, hb.2.1.trans ha.2.2, not_exists.mp hn⟩
  obtain ⟨e, he⟩ := hnamed
  refine ⟨e, he, fun d hd => ?_⟩
  rcases lt_trichotomy d e with hlt | heq | hlt
  · exact absurd he (notTwice d e hlt hd)
  · exact heq
  · exact absurd hd (notTwice e d hlt he)

/-- A column in no three spans and in at least one lies in one or two (R17). -/
theorem covering_cases {g : Geometry} {p : Plane} {c : Nat} (hu : isUsed g p) (hgap : ∃ h : Port, reaches g p h c)
    (htriple : ¬isTriple g p c) :
    (∃ a : Port, g.covering p c = [a])
      ∨ ∃ a b : Port, g.covering p c = [a, b] ∧ a < b ∧ reaches g p a c ∧ reaches g p b c := by
  have hlen := mt three_le_covering.mp htriple
  have hrise := covering_rise g p c
  have hmem : ∀ h : Port, h ∈ g.covering p c ↔ isUsed g p ∧ reaches g p h c := fun h => mem_covering_iff
  match hc : g.covering p c with
  | [] =>
    obtain ⟨h, hh⟩ := hgap
    exact absurd ((hmem h).mpr ⟨hu, hh⟩) (by simp [hc])
  | [a] => exact .inl ⟨a, rfl⟩
  | [a, b] =>
    rw [hc] at hrise hmem
    exact .inr ⟨a, b, rfl, by simpa using hrise, ((hmem a).mp (by simp)).2, ((hmem b).mp (by simp)).2⟩
  | a :: b :: d :: rest => simp [hc] at hlen

/-- Settles O26: each check that passes gives its part of the coverage, seam by seam and row by row. -/
theorem checksGiveCoverage : Obligations.ChecksGiveCoverage := by
  intro s hnone
  have pass := startCheck_eq_none.mp hnone
  have hgap := (test_gap s).mp (pass .gap)
  have htriple := (test_triple s).mp (pass .triple)
  have hsewn := (test_seam s).mp (pass .seam)
  refine ⟨(test_noPlane s).mp (pass .noPlane), Option.isSome_iff_ne_none.mpr ((test_noMotion s).mp (pass .noMotion)),
    Option.isSome_iff_ne_none.mpr ((test_noPlan s).mp (pass .noPlan)), fun p hu => ⟨fun c hc => ?_, ?_⟩⟩
  · refine (covering_cases hu (hgap p c hc) (htriple p c)).imp_right ?_
    rintro ⟨a, b, hcover, hab, ha, hb⟩
    obtain ⟨e, hnamed, hunique⟩ := exists_unique_seam hu (hsewn p hu) hab ha hb
    obtain ⟨l, hl, hpair, hleft, hright⟩ := exists_left_of_isNamed hnamed ha hb
    have joins := joins_of_not_isBad hl hleft.1 ((hsewn p hu).2.1 e)
    exact ⟨a, b, hcover, hab.ne, e, l, hl, hpair, hright.2.1, hleft.2.2, joins.begins, joins.ends, joins.narrow,
      fun d hd => hunique d (names_iff.mp hd)⟩
  · intro h g j k ho hg hj hk
    obtain ⟨q, huq, hoq⟩ := inUse_iff.mp hg
    have hdeep : s.geo.leastDepth p ≤ s.memory.depth p := by
      have hshallow := failOn_eq_none.mp (pass .depth) p (mem_configuredPlanes.mpr hu)
      by_contra hn
      simp [State.shallowOn, Nat.lt_of_not_le hn] at hshallow
    by_contra hn
    exact not_isShallow_of_leastDepth_le hdeep ⟨h, j, ⟨hu, ho, hj⟩, q, g, k, ⟨huq, hoq, hk⟩, Nat.lt_of_not_le hn⟩

end Sys2Proof.Machine
end

section
/-! # The levels of a line (R23 to R26, R29, R30)

Which head owns a column, read from the nozzles that are OUT, and what follows for the level of a nozzle. -/

namespace Sys2Proof.Machine

/-! ### Columns and levels (R5, R22, R27, R30) -/

/-- The columns of a head's nozzles are distinct (R5): a column gives its row and its nozzle back. -/
theorem HeadRec.column_injective {r : HeadRec} {j k : RowIx} {m n : Nat} (hj : j.val < r.rows) (hk : k.val < r.rows)
    (h : r.column j m = r.column k n) : j = k ∧ m = n := by
  have hsum : r.rows * m + j.val = r.rows * n + k.val := by
    simp only [HeadRec.column, Nat.mul_comm _ r.rows] at h
    omega
  have row_of : ∀ {i : RowIx} (x : Nat), i.val < r.rows → (r.rows * x + i.val) % r.rows = i.val := fun x hi => by
    rw [Nat.mul_add_mod, Nat.mod_eq_of_lt hi]
  have hrow : j.val = k.val := by rw [← row_of m hj, hsum, row_of n hk]
  exact ⟨Fin.ext hrow, Nat.eq_of_mul_eq_mul_left (Nat.zero_lt_of_lt hj) (by omega)⟩

/-- Only the owner of a column gives it a nonzero level (R22). -/
theorem owner_of_nozzleLevel_ne_zero {s : State} {p : Plane} {serial : Nat} {line : Nat → Nat} {h : Port} {k : RowIx} {n : Nat}
    (hne : s.nozzleLevel p serial line h k n ≠ 0) : s.owner p serial ((s.geo.heads.get h).column k n) = some h := by
  by_contra ho
  exact hne (by simp [State.nozzleLevel, ho])

/-- Whatever bounds the level of the owner bounds the level of the nozzle (R22). -/
theorem nozzleLevel_le {s : State} {p : Plane} {serial : Nat} {line : Nat → Nat} {h : Port} {k : RowIx} {n b : Nat}
    (hb : s.ownerLevel p serial line ((s.geo.heads.get h).column k n) (s.geo.statusFor p serial h k.val n) ≤ b) :
    s.nozzleLevel p serial line h k n ≤ b := by
  simp only [State.nozzleLevel]
  split
  · exact Nat.zero_le b
  · split
    · exact hb
    · exact Nat.zero_le b

/-- The sum of R29 is clamped to 3, and the weak cap only lowers it. -/
theorem ownerLevel_le_three (s : State) (p : Plane) (serial : Nat) (line : Nat → Nat) (c : Nat) (status : NozzleStatus) :
    s.ownerLevel p serial line c status ≤ 3 := by
  simp only [State.ownerLevel]
  by_cases hw : status = .weak
  · rw [if_pos hw]
    exact (Nat.min_le_left ..).trans (Nat.min_le_left ..)
  · rw [if_neg hw]
    exact Nat.min_le_left ..

theorem ownerLevel_weak_le (s : State) (p : Plane) (serial : Nat) (line : Nat → Nat) (c : Nat) :
    s.ownerLevel p serial line c .weak ≤ (s.geo.planes.get p).weakCap := Nat.min_le_right ..

/-- Settles O53: two nozzles that give a column a nonzero level are on the one head that owns it, and a head reaches a column with
one nozzle; the bounds are those of the owner's level. -/
theorem levelsOfALine : Obligations.LevelsOfALine := by
  refine ⟨?_, fun s p serial line h k n => ⟨nozzleLevel_le (ownerLevel_le_three ..), fun hweak => nozzleLevel_le ?_⟩⟩
  · intro s p serial line line' h g j k m n hcol hj hk hm hn
    have hown := owner_of_nozzleLevel_ne_zero hm
    rw [hcol, owner_of_nozzleLevel_ne_zero hn] at hown
    obtain rfl : g = h := Option.some.inj hown
    exact ⟨rfl, HeadRec.column_injective hj hk hcol⟩
  · rw [hweak]
    exact ownerLevel_weak_le ..

/-! ### The owner of a column (R24 to R26) -/

/-- A column below the width is dead exactly when it has no owner (R28). -/
theorem dead_iff {s : State} {p : Plane} {serial c : Nat} (hc : c < (s.geo.planes.get p).width) :
    s.dead p serial c = true ↔ s.owner p serial c = none := by
  simp [State.dead, hc]

/-- R24: the owner of a column in one span. -/
theorem owner_of_covering_one {s : State} {p : Plane} {c : Nat} {a : Port} (serial : Nat) (h : s.geo.covering p c = [a]) :
    s.owner p serial c = if s.coverOut p serial c a = true then none else some a := by
  simp only [State.owner, h]

/-- The one entry that names two heads is the entry of their seam (R23). -/
theorem seamOf_eq_of_unique {g : Geometry} {a b : Port} {e : SeamIx} (he : isNamed g e a b)
    (hunique : ∀ d : SeamIx, (g.seams.get d).names a b = true → d = e) : g.seamOf a b = some (g.seams.get e) := by
  have hfind : allSeams.find? (fun d => (g.seams.get d).names a b) = some e :=
    find?_eq_some_of_least allSeams_rise (mem_allSeams e) (names_iff.mpr he) fun d _ hlt =>
      Bool.eq_false_iff.mpr fun hd => hlt.ne (hunique d hd)
  simp only [Geometry.seamOf, hfind, Option.map_some]

/-- R25: the pattern chooses the right head where its choice is 1 and the left one where it is 0; the other is the fallback. -/
theorem chosen_eq (g : Geometry) (e : SeamRec) (l : Port) (serial c : Nat) :
    g.chosen e l serial c =
      (if e.choosesRight (c - (g.heads.get e.right).first) serial then e.right else l,
        if e.choosesRight (c - (g.heads.get e.right).first) serial then l else e.right) := by
  unfold Geometry.chosen
  split <;> rfl

/-- R25, R26: the owner of a column in two spans: the chosen head, then the fallback, passing over a head whose nozzle is OUT. -/
theorem owner_of_covering_two {s : State} {p : Plane} {c : Nat} {a b l x y : Port} {e : SeamRec} (serial : Nat)
    (hcover : s.geo.covering p c = [a, b]) (hseam : s.geo.seamOf a b = some e) (hl : e.left = some l)
    (hxy : s.geo.chosen e l serial c = (x, y)) :
    s.owner p serial c =
      if s.coverOut p serial c x = false then some x else if s.coverOut p serial c y = false then some y else none := by
  simp only [State.owner, hcover, hseam, hl, hxy]
  cases s.coverOut p serial c x <;> cases s.coverOut p serial c y <;> rfl

/-! ### Nozzles that are OUT (R10, R13, R32) -/

/-- R10, R32: the staged status counts from the switch serial on while a switch is pending. -/
theorem statusFor_eq (g : Geometry) (p : Plane) (serial : Nat) (h : Port) (k n : Nat) :
    g.statusFor p serial h k n =
      if (g.switches.get p).pending = true ∧ (g.switches.get p).serial ≤ serial then nozzleStatus g.staged h k n
      else nozzleStatus g.active h k n := by
  simp only [Geometry.statusFor, Bool.and_eq_true, decide_eq_true_iff]

/-- The three ways a nozzle is OUT (R10, R13). -/
theorem outFor_iff {s : State} {p : Plane} {serial : Nat} {h : Port} {k n : Nat} :
    s.outFor p serial h k n = true ↔ (s.geo.statusFor p serial h k n = .out
      ∨ (s.job.state ≠ .idle ∧ ∃ f ∈ s.geo.offlineFrom.get h, f ≤ serial)
      ∨ (s.job.state = .idle ∧ (s.ports.get h).state = .offline)) := by
  unfold State.outFor
  cases s.geo.offlineFrom.get h <;> simp [or_assoc]

/-- Nozzles of the same status are OUT together when the job, the offline serial and the port agree. -/
theorem outFor_congr {s t : State} {p : Plane} {serial : Nat} {h : Port} {k n : Nat}
    (hstatus : t.geo.statusFor p serial h k n = s.geo.statusFor p serial h k n) (hjob : t.job = s.job)
    (hfrom : t.geo.offlineFrom = s.geo.offlineFrom) (hports : t.ports = s.ports) :
    t.outFor p serial h k n = s.outFor p serial h k n := by
  simp only [State.outFor, hstatus, hjob, hfrom, hports]

/-- R11, R32: from the switch serial on, a switch that completes makes active the statuses that were staged, which decided already. -/
theorem mapSwitchComplete_keeps_outFor {s t : State} {p : Plane} (hs : awake s) (hstores : storesOk s)
    (hpending : (s.geo.switches.get p).pending = true)
    (hreached : ((s.geo.switches.get p).serial : Int) - 1 ≤ (s.rings.get p).retire)
    (hexec : exec (.mapSwitchComplete p) s = .next t) {serial : Nat} (hserial : (s.geo.switches.get p).serial ≤ serial)
    {h : Port} (k : RowIx) (n : Fin 768) (hon : s.planeOf h = some p) :
    t.outFor p serial h k.val n.val = s.outFor p serial h k.val n.val := by
  obtain ⟨u, hu, hkept, -, hgeo, hswitches, hactive⟩ := mapSwitchResult p s hs hstores hpending hreached
  obtain rfl : t = u := Host.Outcome.next.inj (hexec.symm.trans hu)
  have hsettled : (t.geo.switches.get p).pending = false := by rw [hswitches, if_pos rfl]
  have hstatus : t.geo.statusFor p serial h k.val n.val = s.geo.statusFor p serial h k.val n.val :=
    calc t.geo.statusFor p serial h k.val n.val
      _ = nozzleStatus t.geo.active h k.val n.val := by simp [statusFor_eq, hsettled]
      _ = nozzleStatus s.geo.staged h k.val n.val := by rw [hactive, if_pos hon]
      _ = s.geo.statusFor p serial h k.val n.val := by rw [statusFor_eq, if_pos ⟨hpending, hserial⟩]
  exact outFor_congr hstatus (hkept .job (by simp)) (congrArg (·.offlineFrom) hgeo) (hkept .ports (by simp))

/-- Settles O54: the owner by the number of spans over the column, the nozzles that are OUT, and the switch that completes. -/
theorem columnOwner : Obligations.ColumnOwner := by
  refine ⟨fun s p serial c hc => ⟨dead_iff hc, fun a ha => owner_of_covering_one serial ha, ?_⟩, ?_, ?_⟩
  · intro a b l e hcover hl hpair hunique
    have hnamed : isNamed s.geo e a b := hpair.imp (fun ⟨ha, hb⟩ => ⟨ha ▸ hl, hb⟩) (fun ⟨hb, ha⟩ => ⟨hb ▸ hl, ha⟩)
    exact owner_of_covering_two serial hcover (seamOf_eq_of_unique hnamed hunique) hl (chosen_eq ..)
  · exact fun s p serial h k n => ⟨statusFor_eq .., by rw [← statusFor_eq]; exact outFor_iff⟩
  · exact fun s t p hs hstores hpending hreached hexec serial hserial h k n hon =>
      mapSwitchComplete_keeps_outFor hs hstores hpending hreached hexec hserial k n hon

end Sys2Proof.Machine
end

section
/-! # What each operation leaves alone

For every operation of the machine, the blocks it can change: a frame lemma each, from the replacement of one block up to the owner
of a request and the event of a command. -/

namespace Sys2Proof.Machine

/-! ### Frames put together -/

theorem unchangedBut_refl (bs : List Block) (s : State) : unchangedBut bs s s := fun b _ => sameBlock_refl s b

/-- A frame with more blocks left open. -/
theorem unchangedBut.mono {bs cs : List Block} {s t : State} (h : unchangedBut bs s t) (hs : bs ⊆ cs) : unchangedBut cs s t :=
  fun b hb => h b fun hm => hb (hs hm)

/-- Two frames one after the other, over the blocks of both. -/
theorem unchangedBut.andThen {bs cs ds : List Block} {s t u : State} (h : unchangedBut bs s t) (h' : unchangedBut cs t u)
    (hb : bs ⊆ ds) (hc : cs ⊆ ds) : unchangedBut ds s u :=
  unchangedBut_trans (h.mono hb) (h'.mono hc)

/-- What every member of a list leaves alone, all of them in turn leave alone. -/
theorem unchangedBut_foldl {α : Type} {bs : List Block} {f : State → α → State} (h : ∀ s a, unchangedBut bs s (f s a))
    (l : List α) (s : State) : unchangedBut bs s (l.foldl f s) := by
  induction l generalizing s with
  | nil => exact unchangedBut_refl bs s
  | cons a l ih => exact unchangedBut_trans (h s a) (ih _)

/-- An event leaves alone what both its branches do. -/
theorem unchangedBut_ite {c : Prop} [Decidable c] {bs : List Block} {s t u : State} (ht : unchangedBut bs s t)
    (hu : unchangedBut bs s u) : unchangedBut bs s (if c then t else u) := by
  split
  · exact ht
  · exact hu

/-! ### One block replaced, a notice, a count -/

theorem setJob_frame (s : State) (x : Job) : unchangedBut [.job] s (s.setJob x) := by
  intro b hb; cases b <;> simp_all [sameBlock]
theorem setGeo_frame (s : State) (x : Geometry) : unchangedBut [.geo] s (s.setGeo x) := unchangedBut_setGeo s x (by simp)
theorem setMotion_frame (s : State) (x : Motion) : unchangedBut [.motion] s (s.setMotion x) := by
  intro b hb; cases b <;> simp_all [sameBlock]
theorem setPlace_frame (s : State) (x : PlacementUnit) : unchangedBut [.place] s (s.setPlace x) := unchangedBut_setPlace s x (by simp)
theorem setMemory_frame (s : State) (x : FrameMemory) : unchangedBut [.memory] s (s.setMemory x) := by
  intro b hb; cases b <;> simp_all [sameBlock]
theorem setTemplates_frame (s : State) (x : TemplateStore) : unchangedBut [.templates] s (s.setTemplates x) := by
  intro b hb; cases b <;> simp_all [sameBlock]
theorem setPool_frame (s : State) (x : PatchPool) : unchangedBut [.pool] s (s.setPool x) := by
  intro b hb; cases b <;> simp_all [sameBlock]
theorem setComposer_frame (s : State) (x : Composer) : unchangedBut [.composer] s (s.setComposer x) := by
  intro b hb; cases b <;> simp_all [sameBlock]
theorem setRings_frame (s : State) (x : Table 6 Ring) : unchangedBut [.rings] s (s.setRings x) := by
  intro b hb; cases b <;> simp_all [sameBlock]
theorem setPorts_frame (s : State) (x : Table 12 HeadPort) : unchangedBut [.ports] s (s.setPorts x) := by
  intro b hb; cases b <;> simp_all [sameBlock]
theorem setCounters_frame (s : State) (x : Counters) : unchangedBut [.counters] s (s.setCounters x) := by
  intro b hb; cases b <;> simp_all [sameBlock]
theorem setFeed_frame (s : State) (x : Feed) : unchangedBut [.feed] s (s.setFeed x) := unchangedBut_setFeed s x (by simp)
theorem updPort_frame (s : State) (h : Port) (f : HeadPort → HeadPort) : unchangedBut [.ports] s (s.updPort h f) := setPorts_frame s _
theorem updRow_frame (s : State) (h : Port) (k : RowIx) (f : Row → Row) : unchangedBut [.ports] s (s.updRow h k f) :=
  updPort_frame s h _
theorem updRing_frame (s : State) (p : Plane) (f : Ring → Ring) : unchangedBut [.rings] s (s.updRing p f) := setRings_frame s _

theorem placeNotice_frame (n : Notice) (s : State) : unchangedBut [.feed] s (placeNotice n s) := unchangedBut_placeNotice n s (by simp)

theorem bump_frame (c : CounterId) (s : State) : unchangedBut [.counters, .feed] s (bump c s) := by
  intro b hb; cases b <;> simp_all [sameBlock]

theorem placeReply_frame (tag code : Byte) (a : Answer) (s : State) : unchangedBut [.feed] s (placeReply tag code a s) :=
  setFeed_frame s _

theorem finish_frame (s : State) : unchangedBut [.feed] s (finish s) := unchangedBut_finish (by simp) (unchangedBut_refl _ s)

/-! ### The Geometry Store and the frame memory -/

theorem completeSwitch_frame (p : Plane) (s : State) : unchangedBut [.geo, .feed] s (completeSwitch p s) :=
  (setGeo_frame s _).andThen (placeNotice_frame _ _) (by simp) (by simp)

theorem completeSwitches_frame (s : State) : unchangedBut [.geo, .feed] s (completeSwitches s) :=
  unchangedBut_foldl (fun u p => unchangedBut_ite (completeSwitch_frame p u) (unchangedBut_refl _ u)) _ s

theorem countReads_frame (block : Nat) (need : Nat → Bool) (s : State) :
    unchangedBut [.counters, .feed] s (countReads block need s) := by
  refine unchangedBut_foldl (fun u e => ?_) _ s
  cases e.2 <;> exact bump_frame _ u

/-! ### Rings and rows -/

theorem reformRetire_frame (p : Plane) (s : State) : unchangedBut [.rings] s (reformRetire p s) := updRing_frame s p _
theorem raiseFrontier_frame (p : Plane) (serial : Nat) (s : State) : unchangedBut [.rings] s (raiseFrontier p serial s) :=
  updRing_frame s p _

/-- A release report of a cause that is not counted. -/
theorem release_uncounted_frame (h : Port) (k : RowIx) (p : Plane) (serial : Nat) {cause : ReleaseCause} (hc : cause ≠ .underrun)
    (s : State) : unchangedBut [.rings, .ports] s (release h k p serial cause s) := by
  simp only [release, if_neg hc]
  refine (updRow_frame s h k _).andThen (cs := [.rings]) (unchangedBut_ite ?_ (unchangedBut_refl _ _)) (by simp) (by simp)
  exact reformRetire_frame p _

theorem release_rows_frame (h : Port) (k : RowIx) (p : Plane) (serial : Nat) (cause : ReleaseCause) (s : State) :
    unchangedBut [.rings, .ports, .counters, .feed] s (release h k p serial cause s) := by
  by_cases hc : cause = .underrun
  · subst hc
    refine ((updRow_frame s h k _).andThen (bump_frame (.underruns p) _) (ds := [.ports, .counters, .feed]) (by simp)
      (by simp)).andThen (cs := [.rings]) (unchangedBut_ite ?_ (unchangedBut_refl _ _)) (by simp) (by simp)
    exact reformRetire_frame p _
  · exact (release_uncounted_frame h k p serial hc s).mono (by simp)

theorem dropLineOf_frame (h : Port) (k : RowIx) (s : State) : unchangedBut [.ports] s (dropLineOf h k s) :=
  unchangedBut_trans (updRow_frame s h k _) (updPort_frame _ h _)

theorem giveUp_frame (h : Port) (k : RowIx) (p : Plane) {cause : ReleaseCause} (hc : cause ≠ .underrun) (s : State) :
    unchangedBut [.rings, .ports] s (giveUp h k p cause s) := by
  unfold giveUp
  split
  · exact (dropLineOf_frame h k s).andThen (release_uncounted_frame h k p _ hc _) (by simp) (by simp)
  · exact (dropLineOf_frame h k s).mono (by simp)

theorem haltRow_frame (h : Port) (s : State) (k : RowIx) : unchangedBut [.rings, .ports] s (haltRow h s k) := by
  unfold haltRow
  split
  · refine unchangedBut_ite (unchangedBut_refl _ s) (unchangedBut_ite ?_ ?_)
    · exact (dropLineOf_frame h k s).mono (by simp)
    · exact giveUp_frame h k _ (by simp) s
  · exact (dropLineOf_frame h k s).mono (by simp)

theorem haltRows_frame (s : State) : unchangedBut [.rings, .ports] s (haltRows s) :=
  unchangedBut_foldl (fun u h => unchangedBut_foldl (haltRow_frame h) _ u) _ s

theorem queueLoad_frame (h : Port) (k : RowIx) (l : PendingLine) (due : Option Nat) (s : State) :
    unchangedBut [.ports] s (queueLoad h k l due s) := updPort_frame s h _

theorem fireLine_frame (h : Port) (k : RowIx) (s : State) : unchangedBut [.ports, .counters, .feed] s (fireLine h k s) := by
  refine (updRow_frame s h k _).andThen (cs := [.ports, .counters, .feed]) (unchangedBut_ite ?_ (unchangedBut_refl _ _)) (by simp)
    (by simp)
  exact (updPort_frame _ h _).andThen (bump_frame _ _) (by simp) (by simp)

theorem prefetch_frame (h : Port) (k : RowIx) (s : State) : unchangedBut [.ports] s (prefetch h k s) := by
  unfold prefetch
  split
  · split
    · exact queueLoad_frame h k _ _ s
    · exact unchangedBut_refl _ s
  · exact unchangedBut_refl _ s

theorem fireNow_frame (h : Port) (k : RowIx) (s : State) : unchangedBut [.ports, .counters, .feed] s (fireNow h k s) := by
  refine ((fireLine_frame h k s).andThen (cs := [.counters, .feed]) (ds := [.ports, .counters, .feed])
    (unchangedBut_ite (bump_frame _ _) (unchangedBut_refl _ _)) (by simp) (by simp)).andThen (prefetch_frame h k _) (by simp)
    (by simp)

/-! ### The print tick -/

theorem settlePrevious_frame (h : Port) (k : RowIx) (p : Plane) (s : State) :
    unchangedBut [.rings, .ports, .counters, .feed] s (settlePrevious h k p s) := by
  refine unchangedBut_ite (unchangedBut_ite ?_ ?_) (unchangedBut_refl _ s)
  · exact (fireLine_frame h k s).andThen (bump_frame _ _) (by simp) (by simp)
  · exact (giveUp_frame h k p (by simp) s).andThen (bump_frame _ _) (by simp) (by simp)

theorem takeDue_frame (h : Port) (k : RowIx) (p : Plane) (s : State) :
    unchangedBut [.rings, .ports, .counters, .feed] s (takeDue h k p s) := by
  unfold takeDue
  split
  · exact unchangedBut_refl _ s
  · next serial _ =>
    refine (raiseFrontier_frame p serial s).andThen (cs := [.rings, .ports, .counters, .feed]) (unchangedBut_ite ?_ ?_) (by simp)
      (by simp)
    · exact (updRow_frame _ h k _).mono (by simp)
    · split
      · exact (queueLoad_frame h k _ _ _).mono (by simp)
      · exact release_rows_frame h k p serial _ _

theorem haltedTick_frame (h : Port) (k : RowIx) (p : Plane) (s : State) :
    unchangedBut [.rings, .ports, .counters, .feed] s (haltedTick h k p s) := by
  unfold haltedTick
  split
  · exact unchangedBut_refl _ s
  · next serial _ => exact (raiseFrontier_frame p serial s).andThen (release_rows_frame h k p serial _ _) (by simp) (by simp)

theorem rowTick_frame (h : Port) (s : State) (k : RowIx) :
    unchangedBut [.rings, .ports, .counters, .feed] s (rowTick h s k) := by
  unfold rowTick
  split
  · exact unchangedBut_refl _ s
  · next p _ =>
    exact unchangedBut_ite (haltedTick_frame h k p s) (unchangedBut_trans (settlePrevious_frame h k p s) (takeDue_frame h k p _))

theorem rowsTick_frame (s : State) : unchangedBut [.rings, .ports, .counters, .feed] s (rowsTick s) :=
  unchangedBut_foldl (fun u h => unchangedBut_ite (unchangedBut_foldl (rowTick_frame h) _ u) (unchangedBut_refl _ u)) _ s

theorem copyRetired_frame (copy : Nat) (s : State) : unchangedBut [.pool, .composer] s (copyRetired copy s) := by
  refine (setComposer_frame s _).andThen (cs := [.pool, .composer]) (unchangedBut_ite ?_ (unchangedBut_refl _ _)) (by simp) (by simp)
  exact (setPool_frame _ _).andThen (setComposer_frame _ _) (by simp) (by simp)

theorem retirePlacement_frame (q : Placement) (s : State) :
    unchangedBut [.place, .pool, .composer, .counters, .feed] s (retirePlacement q s) := by
  refine (setPlace_frame s _).andThen ((bump_frame .copiesPrinted _).andThen ((placeNotice_frame _ _).andThen
    (copyRetired_frame q.copy _) (ds := [.feed, .pool, .composer]) ?_ ?_)
    (ds := [.pool, .composer, .counters, .feed]) ?_ ?_) ?_ ?_ <;> simp

theorem placementTick_frame (s : State) : unchangedBut [.place, .pool, .composer, .counters, .feed] s (placementTick s) := by
  refine unchangedBut_ite ?_ (unchangedBut_refl _ s)
  split
  · exact retirePlacement_frame _ s
  · exact unchangedBut_refl _ s

end Sys2Proof.Machine
end

section
/-! # What each event and each request leaves alone

The frames of the blocks' operations, and from them the blocks that each command can change: `exec_frame`. -/

namespace Sys2Proof.Machine

/-! ### Head ports -/

theorem keepWetPulse_frame (h : Port) (s : State) : unchangedBut [.ports, .counters, .feed] s (keepWetPulse h s) := by
  refine ((unchangedBut_foldl (fun u k => updRow_frame u h k _) _ s).andThen (updPort_frame _ h _) (ds := [.ports]) ?_ ?_).andThen
    (bump_frame _ _) ?_ ?_ <;> simp

theorem keepWetExpire_frame (h : Port) (s : State) : unchangedBut [.ports, .counters, .feed] s (keepWetExpire h s) :=
  unchangedBut_ite (keepWetPulse_frame h s) ((updPort_frame s h _).mono (by simp))

theorem grantLoad_frame (h : Port) (s : State) : unchangedBut [.rings, .ports] s (grantLoad h s) := by
  unfold grantLoad
  split
  · next k rest p _ _ =>
    have hrow := unchangedBut_trans (updPort_frame s h (fun q => { q with arbiter := rest })) (updRow_frame _ h k (fun r =>
      { r with load := .loading, loadEnd := s.now + loadTicks (s.geo.heads.get h).nozzles }))
    dsimp only
    split
    · exact hrow.andThen (raiseFrontier_frame p _ _) (by simp) (by simp)
    · exact hrow.mono (by simp)
  · exact unchangedBut_refl _ s

theorem completeLoad_frame (h : Port) (k : RowIx) (p : Plane) (serial block : Nat) (s : State) :
    unchangedBut [.rings, .ports, .counters, .feed] s (completeLoad h k p serial block s) := by
  refine ((countReads_frame block _ s).andThen (updRow_frame _ h k _) (ds := [.ports, .counters, .feed]) ?_ ?_).andThen
    (release_rows_frame h k p serial .loaded _) ?_ ?_ <;> simp

theorem setPortState_frame (h : Port) (st : PortState) (s : State) : unchangedBut [.ports, .feed] s (setPortState h st s) :=
  (updPort_frame s h _).andThen (placeNotice_frame _ _) (by simp) (by simp)

theorem portReady_frame (h : Port) (s : State) : unchangedBut [.ports, .feed] s (portReady h s) :=
  (updPort_frame s h _).andThen (setPortState_frame h .ready _) (by simp) (by simp)

theorem portRecovers_frame (h : Port) (s : State) : unchangedBut [.geo, .ports, .feed] s (portRecovers h s) := by
  refine ((updPort_frame s h _).andThen (setGeo_frame _ _) (ds := [.geo, .ports]) ?_ ?_).andThen (portReady_frame h _) ?_ ?_ <;> simp

/-! ### Job Control -/

theorem setJobState_frame (st : JobState) (cause : JobCause) (s : State) : unchangedBut [.job, .feed] s (setJobState st cause s) :=
  (setJob_frame s _).andThen (placeNotice_frame _ _) (by simp) (by simp)

theorem stopComposer_frame (s : State) : unchangedBut [.composer] s (stopComposer s) := setComposer_frame s _

theorem enterHalted_frame (s : State) : unchangedBut [.composer, .rings, .ports] s (enterHalted s) :=
  (stopComposer_frame s).andThen (haltRows_frame _) (by simp) (by simp)

/-- A halt cause in RUNNING or STOPPING halts the job (R156). -/
theorem raiseHalt_of_active (first : HaltCause) (cause : JobCause) {s : State} (h : s.job.state = .running ∨ s.job.state = .stopping) :
    raiseHalt first cause s = enterHalted (placeNotice (.jobState .halted cause) (s.setJob ⟨.halted, first⟩)) := by
  rcases h with h | h <;> simp only [raiseHalt, h]

/-- A halt cause in HALTED is a later halt, and none in IDLE (R156). -/
theorem raiseHalt_of_inactive (first : HaltCause) (cause : JobCause) {s : State}
    (h : ¬(s.job.state = .running ∨ s.job.state = .stopping)) :
    raiseHalt first cause s = if s.job.state = .halted then bump .laterHalts s else s := by
  cases hj : s.job.state <;> simp_all [raiseHalt]

theorem raiseHalt_frame (first : HaltCause) (cause : JobCause) (s : State) :
    unchangedBut [.job, .composer, .rings, .ports, .counters, .feed] s (raiseHalt first cause s) := by
  by_cases h : s.job.state = .running ∨ s.job.state = .stopping
  · rw [raiseHalt_of_active first cause h]
    refine ((setJob_frame s _).andThen (placeNotice_frame _ _) (ds := [.job, .feed]) ?_ ?_).andThen (enterHalted_frame _) ?_ ?_ <;>
      simp
  · rw [raiseHalt_of_inactive first cause h]
    exact unchangedBut_ite ((bump_frame _ s).mono (by simp)) (unchangedBut_refl _ s)

theorem offlineInJob_frame (h : Port) (p : Plane) (s : State) :
    unchangedBut [.job, .geo, .composer, .rings, .ports, .counters, .feed] s (offlineInJob h p s) := by
  have hrows : ∀ (u : State) (k : RowIx), unchangedBut [.rings, .ports] u
      (if (u.row h k).line.isSome then giveUp h k p .abandoned u else u) :=
    fun u k => unchangedBut_ite (giveUp_frame h k p (by simp) u) (unchangedBut_refl _ u)
  refine ((setGeo_frame s _).andThen ((updPort_frame _ h _).andThen ((unchangedBut_foldl hrows allRows _).andThen
    ((reformRetire_frame p _).andThen ((updPort_frame _ h _).andThen (placeNotice_frame _ _) (ds := [.ports, .feed]) ?_ ?_)
      (ds := [.rings, .ports, .feed]) ?_ ?_) (ds := [.rings, .ports, .feed]) ?_ ?_) (ds := [.rings, .ports, .feed]) ?_ ?_)
    (ds := [.geo, .rings, .ports, .feed]) ?_ ?_).andThen (cs := [.job, .composer, .rings, .ports, .counters, .feed])
    (unchangedBut_ite (raiseHalt_frame _ _ _) (unchangedBut_refl _ _)) ?_ ?_ <;> simp

theorem portOffline_frame (h : Port) (s : State) :
    unchangedBut [.job, .geo, .composer, .rings, .ports, .counters, .feed] s (portOffline h s) := by
  have hplain : unchangedBut [.job, .geo, .composer, .rings, .ports, .counters, .feed] s (setPortState h .offline
      (s.updPort h (fun q => { q with faultCount := 0, keepWet := q.keepWet.disarm }))) :=
    (updPort_frame s h _).andThen (setPortState_frame h .offline _) (by simp) (by simp)
  unfold portOffline
  split
  · exact hplain
  · exact hplain
  · exact offlineInJob_frame h _ s

theorem clearComposer_frame (s : State) : unchangedBut [.pool, .composer] s (clearComposer s) :=
  (setComposer_frame s _).andThen (setPool_frame _ _) (by simp) (by simp)

theorem clearJob_frame (s : State) :
    unchangedBut [.geo, .motion, .place, .pool, .composer, .rings, .ports, .feed] s (clearJob s) := by
  refine (setMotion_frame s _).andThen ((setPlace_frame _ _).andThen ((clearComposer_frame _).andThen ((setRings_frame _ _).andThen
    ((setPorts_frame _ _).andThen (completeSwitches_frame _) (ds := [.geo, .ports, .feed]) ?_ ?_)
    (ds := [.geo, .rings, .ports, .feed]) ?_ ?_) (ds := [.geo, .pool, .composer, .rings, .ports, .feed]) ?_ ?_)
    (ds := [.geo, .place, .pool, .composer, .rings, .ports, .feed]) ?_ ?_) ?_ ?_ <;> simp

/-! ### The feed link -/

theorem setChannelState_frame (c : DataCh) (st : ChannelState) (s : State) : unchangedBut [.feed] s (setChannelState c st s) :=
  unchangedBut_trans (setFeed_frame s _) (placeNotice_frame _ _)

theorem serveList_frame (cs : List DataCh) (s : State) : unchangedBut [.feed] s (serveList cs s) := by
  induction cs generalizing s with
  | nil => exact setFeed_frame s _
  | cons c cs ih => exact unchangedBut_ite (unchangedBut_trans (setChannelState_frame c .pending s) (ih _)) (setFeed_frame s _)

theorem closeDrained_frame (c : DataCh) (s : State) : unchangedBut [.feed] s (closeDrained c s) :=
  unchangedBut_trans (setChannelState_frame c .closed s) (serveList_frame _ _)

theorem closeAllDrained_frame (s : State) : unchangedBut [.feed] s (closeAllDrained s) :=
  unchangedBut_foldl (fun u c => unchangedBut_ite (closeDrained_frame c u) (unchangedBut_refl _ u)) _ s

theorem closeAllChannels_frame (s : State) : unchangedBut [.feed] s (closeAllChannels s) :=
  unchangedBut_trans (setFeed_frame s _)
    (unchangedBut_foldl (fun u c => unchangedBut_ite (unchangedBut_refl _ u) (setChannelState_frame c .closed u)) _ _)

theorem linkDown_frame (s : State) : unchangedBut [.feed] s (linkDown s) :=
  unchangedBut_trans (setFeed_frame s _)
    (unchangedBut_foldl (fun u c => unchangedBut_ite (setChannelState_frame c .pending u) (unchangedBut_refl _ u)) _ _)

theorem headerReceived_frame (v : HeaderVerdict) (s : State) : unchangedBut [.counters, .feed] s (headerReceived v s) := by
  cases v
  case passes i => exact (setFeed_frame s _).mono (by simp)
  all_goals exact (bump_frame _ s).andThen (linkDown_frame _) (by simp) (by simp)

theorem creditSent_frame (c : Fin 4) (limit : BitVec 16) (s : State) : unchangedBut [.feed] s (creditSent c limit s) := by
  refine unchangedBut_trans (setFeed_frame s { s.feed with
    sent := s.feed.sendingBytes, sending := none, credit := s.feed.credit.upd c (fun k => { k with announced := limit }) }) ?_
  unfold creditSent
  split
  · exact unchangedBut_ite (setChannelState_frame _ .opened _) (unchangedBut_refl _ _)
  · exact unchangedBut_refl _ _

theorem frameSent_frame (s : State) : unchangedBut [.feed] s (frameSent s) := by
  unfold frameSent
  split
  · exact setFeed_frame s _
  · exact setFeed_frame s _
  · exact unchangedBut_refl _ s

/-! ### Templates, patches and compositions -/

theorem dropLine_frame (f : DataFrame) (reason : DropReason) (s : State) : unchangedBut [.counters, .feed] s (dropLine f reason s) :=
  (bump_frame _ s).andThen (placeNotice_frame _ _) (by simp) (by simp)

theorem takeTemplateLine_frame (f : DataFrame) (rest : List DataFrame) (s : State) :
    unchangedBut [.templates, .counters, .feed] s (takeTemplateLine f rest s) := by
  refine (setFeed_frame s { s.feed with awaiting := rest }).andThen (cs := [.templates, .counters, .feed]) ?_ (by simp) (by simp)
  unfold takeTemplateLine
  dsimp only
  split
  · exact (dropLine_frame f _ _).mono (by simp)
  · unfold beginLineWrite
    dsimp only
    split
    · exact (setTemplates_frame _ _).mono (by simp)
    · exact unchangedBut_refl _ _

theorem finishLineWrite_frame (w : TemplateWrite) (s : State) :
    unchangedBut [.memory, .templates, .feed] s (finishLineWrite w s) := by
  refine ((setMemory_frame s _).andThen (setTemplates_frame _ _) (ds := [.memory, .templates]) ?_ ?_).andThen (cs := [.feed])
    (unchangedBut_ite (placeNotice_frame _ _) (unchangedBut_refl _ _)) ?_ ?_ <;> simp

theorem dropPatch_frame (f : DataFrame) (reason : DropReason) (s : State) : unchangedBut [.counters, .feed] s (dropPatch f reason s) :=
  (bump_frame _ s).andThen (placeNotice_frame _ _) (by simp) (by simp)

theorem beginPatchWrite_frame (f : DataFrame) (slot : Nat) (s : State) :
    unchangedBut [.pool, .counters, .feed] s (beginPatchWrite f slot s) := by
  unfold beginPatchWrite
  dsimp only
  split
  · exact (unchangedBut_ite (bump_frame .patchesClipped s) (unchangedBut_refl _ s)).andThen (setPool_frame _ _) (by simp) (by simp)
  · exact unchangedBut_refl _ s

theorem takePatch_frame (f : DataFrame) (rest : List DataFrame) (s : State) :
    unchangedBut [.pool, .counters, .feed] s (takePatch f rest s) := by
  have htaken := setFeed_frame s { s.feed with awaiting := rest }
  unfold takePatch
  dsimp only
  split
  · exact htaken.andThen (dropPatch_frame f _ _) (by simp) (by simp)
  · split
    · exact htaken.andThen (beginPatchWrite_frame f _ _) (by simp) (by simp)
    · exact unchangedBut_refl _ s

theorem finishPatchWrite_frame (w : PatchWrite) (s : State) :
    unchangedBut [.memory, .pool, .composer] s (finishPatchWrite w s) := by
  refine ((setMemory_frame s _).andThen (setPool_frame _ _) (ds := [.memory, .pool]) ?_ ?_).andThen (setComposer_frame _ _) ?_ ?_ <;>
    simp

theorem writeLine_frame (f : Composition) (s : State) (t : Plane × Nat) :
    unchangedBut [.memory, .counters, .feed] s (writeLine f s t) := by
  have hbase : unchangedBut [.counters, .feed] s
      (match s.baseBlock t.1 with | some b => countReads b (fun _ => true) s | none => s) := by
    split
    · exact countReads_frame _ _ s
    · exact unchangedBut_refl _ s
  have hreads : unchangedBut [.counters, .feed] s (countComposeReads f t.1 s) :=
    unchangedBut_trans hbase (unchangedBut_foldl (fun u (e : PatchEntry) => countReads_frame e.slot (fun _ => true) u) _ _)
  exact hreads.andThen (setMemory_frame _ _) (by simp) (by simp)

theorem commitTo_frame (serial : Nat) (p : Plane) (s : State) : unchangedBut [.rings, .counters, .feed] s (commitTo serial p s) :=
  unchangedBut_ite ((updRing_frame s p _).mono (by simp)) ((bump_frame _ s).mono (by simp))

theorem completeComposition_frame (f : Composition) (s : State) :
    unchangedBut [.memory, .pool, .composer, .rings, .counters, .feed] s (completeComposition f s) := by
  have hlines := unchangedBut_foldl (writeLine_frame f) f.targets s
  have hcommits := unchangedBut_foldl (fun u (t : Plane × Nat) => commitTo_frame u.composer.serial t.1 u) f.targets
    (f.targets.foldl (writeLine f) s)
  have hwritten := hlines.andThen hcommits (ds := [.memory, .rings, .counters, .feed]) (by simp) (by simp)
  exact (hwritten.andThen (setPool_frame _ _) (ds := [.memory, .pool, .rings, .counters, .feed]) (by simp) (by simp)).andThen
    (setComposer_frame _ _) (by simp) (by simp)

/-! ### Product edges and placements -/

theorem offerEdge_frame (i : PdIx) (s : State) : unchangedBut [.place, .counters, .feed] s (offerEdge i s) := by
  unfold offerEdge
  split
  · exact unchangedBut_refl _ s
  · exact (bump_frame _ s).mono (by simp)
  · exact (bump_frame _ s).mono (by simp)
  · exact (bump_frame _ s).andThen (setPlace_frame _ _) (by simp) (by simp)
  · exact (bump_frame _ s).andThen (setPlace_frame _ _) (by simp) (by simp)
  · exact (setPlace_frame s _).mono (by simp)

theorem pdAccept_frame (i : PdIx) (s : State) : unchangedBut [.place, .counters, .feed] s (pdAccept i s) :=
  (setPlace_frame s _).andThen (cs := [.place, .counters, .feed]) (unchangedBut_ite (offerEdge_frame i _) (unchangedBut_refl _ _))
    (by simp) (by simp)

theorem placeContinuous_frame (s : State) : unchangedBut [.place] s (placeContinuous s) := by
  unfold placeContinuous
  split
  · exact setPlace_frame s _
  · exact unchangedBut_refl _ s

end Sys2Proof.Machine
end

section
/-! # The blocks a command can change

One list of blocks for each command, the frame of `exec` over it, and an invariant carried from the commands to a step. -/

namespace Sys2Proof.Machine

/-! ### The owners of the requests -/

/-- An owner leaves alone what both its branches do. -/
theorem owner_ite {c : Prop} [Decidable c] {bs : List Block} {s : State} {x y : State × Answer} (hx : unchangedBut bs s x.1)
    (hy : unchangedBut bs s y.1) : unchangedBut bs s (if c then x else y).1 := by
  split
  · exact hx
  · exact hy

/-- A request its owner refuses. -/
theorem refusal_frame (bs : List Block) (s : State) (a : Answer) : unchangedBut bs s (s, a).1 := unchangedBut_refl bs s

theorem ownSetPlane_frame (plane : Byte) (width : BitVec 16) (add1 add2 add3 weakCap : Byte) (s : State) :
    unchangedBut [.geo] s (ownSetPlane plane width add1 add2 add3 weakCap s).1 := by
  unfold ownSetPlane
  split
  · exact owner_ite (refusal_frame _ s _) (owner_ite (refusal_frame _ s _) (setGeo_frame s _))
  · exact refusal_frame _ s _

theorem setHeadPort_frame (h : Port) (assigned : Bool) (s : State) : unchangedBut [.geo, .ports, .feed] s (setHeadPort h assigned s) := by
  rcases setHeadPort_cases h assigned s with ⟨-, -, e⟩ | ⟨-, -, e⟩ | ⟨-, e⟩ <;> rw [e]
  · exact (portReady_frame h s).mono (by simp)
  · exact ((updPort_frame s h _).andThen (setGeo_frame _ _) (ds := [.geo, .ports]) (by simp) (by simp)).andThen
      (setPortState_frame h .unassigned _) (by simp) (by simp)
  · exact unchangedBut_refl _ s

theorem ownSetHead_frame (port plane : Byte) (first : BitVec 16) (rows : Byte) (nozzles : BitVec 16) (d f : Table 4 Nat)
    (window : BitVec 16) (policy : Byte) (s : State) :
    unchangedBut [.geo, .ports, .feed] s (ownSetHead port plane first rows nozzles d f window policy s).1 := by
  unfold ownSetHead
  split
  · exact owner_ite (refusal_frame _ s _) ((setGeo_frame s _).andThen (setHeadPort_frame _ _ _) (by simp) (by simp))
  · exact refusal_frame _ s _

theorem ownSetSeam_frame (entry left right shift : Byte) (pattern : BitVec 64) (s : State) :
    unchangedBut [.geo] s (ownSetSeam entry left right shift pattern s).1 := by
  unfold ownSetSeam
  split
  · exact owner_ite (refusal_frame _ s _) (setGeo_frame s _)
  · exact refusal_frame _ s _

theorem ownSetNozzles_frame (port row : Byte) (first count : BitVec 16) (statuses : List Byte) (s : State) :
    unchangedBut [.geo] s (ownSetNozzles port row first count statuses s).1 := by
  unfold ownSetNozzles
  split
  · exact refusal_frame _ s _
  · refine owner_ite (refusal_frame _ s _) ?_
    split
    · exact refusal_frame _ s _
    · exact owner_ite (setGeo_frame s _) (owner_ite (refusal_frame _ s _) (setGeo_frame s _))
    · exact setGeo_frame s _

/-- Read Nozzles changes nothing (R12). -/
theorem ownReadNozzles_eq (port row : Byte) (first count : BitVec 16) (s : State) : (ownReadNozzles port row first count s).1 = s := by
  unfold ownReadNozzles
  split
  · rfl
  · dsimp only
    split <;> rfl

theorem ownRestoreHead_frame (port : Byte) (s : State) : unchangedBut [.geo, .ports, .feed] s (ownRestoreHead port s).1 := by
  unfold ownRestoreHead
  split
  · exact refusal_frame _ s _
  · exact owner_ite (refusal_frame _ s _) (owner_ite (refusal_frame _ s _) (owner_ite (refusal_frame _ s _) (portRecovers_frame _ s)))

theorem ownSetMotion_frame (sense filter : Byte) (limit : BitVec 16) (n m : BitVec 24) (s : State) :
    unchangedBut [.motion] s (ownSetMotion sense filter limit n m s).1 := by
  unfold ownSetMotion
  split
  · exact owner_ite (refusal_frame _ s _) (setMotion_frame s _)
  · exact refusal_frame _ s _

theorem ownSetRatio_frame (n m : BitVec 24) (s : State) : unchangedBut [.motion] s (ownSetRatio n m s).1 := by
  unfold ownSetRatio
  split
  · exact refusal_frame _ s _
  · exact owner_ite (setMotion_frame s _) (setMotion_frame s _)

theorem ownSetTrigger_frame (input edge filter : Byte) (lockout : BitVec 16) (s : State) :
    unchangedBut [.place] s (ownSetTrigger input edge filter lockout s).1 := by
  unfold ownSetTrigger
  split
  · exact owner_ite (refusal_frame _ s _) (setPlace_frame s _)
  · exact refusal_frame _ s _

theorem ownSetKeepWet_frame (port interval mode : Byte) (s : State) :
    unchangedBut [.ports] s (ownSetKeepWet port interval mode s).1 := by
  unfold ownSetKeepWet
  split
  · exact updPort_frame s _ _
  · exact refusal_frame _ s _

theorem ownSetMemoryPlan_frame (slots d0 d1 d2 d3 d4 d5 : BitVec 16) (s : State) :
    unchangedBut [.memory, .templates] s (ownSetMemoryPlan slots d0 d1 d2 d3 d4 d5 s).1 := by
  unfold ownSetMemoryPlan
  split
  · exact refusal_frame _ s _
  · exact owner_ite (refusal_frame _ s _) (owner_ite (refusal_frame _ s _) (owner_ite (refusal_frame _ s _)
      ((setMemory_frame s _).andThen (setTemplates_frame _ _) (by simp) (by simp))))

theorem ownDefineTemplate_frame (template : Byte) (length : BitVec 16) (s : State) :
    unchangedBut [.templates] s (ownDefineTemplate template length s).1 := by
  unfold ownDefineTemplate
  split
  · exact refusal_frame _ s _
  · refine owner_ite (refusal_frame _ s _) (owner_ite (refusal_frame _ s _) (owner_ite (refusal_frame _ s _) ?_))
    dsimp only
    split
    · exact refusal_frame _ s _
    · exact setTemplates_frame s _

theorem ownDropTemplate_frame (template : Byte) (s : State) : unchangedBut [.templates] s (ownDropTemplate template s).1 := by
  unfold ownDropTemplate
  split
  · exact refusal_frame _ s _
  · exact owner_ite (refusal_frame _ s _) (owner_ite (refusal_frame _ s _) (setTemplates_frame s _))

theorem ownQueuePage_frame (template : Byte) (copies length gap top : BitVec 16) (source patched : Byte) (s : State) :
    unchangedBut [.composer] s (ownQueuePage template copies length gap top source patched s).1 := by
  unfold ownQueuePage
  split
  · exact owner_ite (refusal_frame _ s _) (owner_ite (refusal_frame _ s _) (owner_ite (refusal_frame _ s _)
      (owner_ite (refusal_frame _ s _) (owner_ite (refusal_frame _ s _) (setComposer_frame s _)))))
  · exact refusal_frame _ s _

theorem ownMark_frame (copy : BitVec 32) (value : BitVec 16) (s : State) : unchangedBut [.composer] s (ownMark copy value s).1 :=
  owner_ite (refusal_frame _ s _) (owner_ite (refusal_frame _ s _) (owner_ite (refusal_frame _ s _) (setComposer_frame s _)))

theorem joinOrder_frame (c : DataCh) (planes : BitVec 6) (quota : Nat) (s : State) :
    unchangedBut [.feed] s (joinOrder c planes quota s) :=
  unchangedBut_trans (setFeed_frame s _) (unchangedBut_trans (setChannelState_frame c .waiting _) (serveList_frame _ _))

theorem ownOpenChannel_frame (channel planes : Byte) (quota : BitVec 16) (s : State) :
    unchangedBut [.feed] s (ownOpenChannel channel planes quota s).1 := by
  unfold ownOpenChannel
  split
  · exact owner_ite (refusal_frame _ s _) (owner_ite (refusal_frame _ s _) (joinOrder_frame _ _ _ s))
  · exact refusal_frame _ s _

theorem closeChannel_frame (c : DataCh) (s : State) : unchangedBut [.feed] s (closeChannel c s) := by
  refine unchangedBut_ite ?_ (unchangedBut_ite ?_ (setChannelState_frame c .draining s))
  · exact unchangedBut_trans (setFeed_frame s _) (unchangedBut_trans (setChannelState_frame c .closed _) (serveList_frame _ _))
  · exact unchangedBut_trans (setChannelState_frame c .closed s) (serveList_frame _ _)

theorem ownCloseChannel_frame (channel : Byte) (s : State) : unchangedBut [.feed] s (ownCloseChannel channel s).1 := by
  unfold ownCloseChannel
  split
  · exact refusal_frame _ s _
  · exact owner_ite (refusal_frame _ s _) (closeChannel_frame _ s)

theorem clearReported_frame (clear : Bool) (s : State) : unchangedBut [.counters, .feed] s (clearReported clear s) :=
  (setCounters_frame s _).andThen (setFeed_frame _ _) (by simp) (by simp)

theorem ownStatusReport_frame (option : Byte) (s : State) : unchangedBut [.counters, .feed] s (ownStatusReport option s).1 := by
  unfold ownStatusReport
  split
  · exact clearReported_frame false s
  · exact clearReported_frame true s
  · exact refusal_frame _ s _

theorem startJob_frame (s : State) : unchangedBut [.job, .motion, .place, .rings, .ports, .feed] s (startJob s) := by
  refine (setMotion_frame s _).andThen ((setPlace_frame _ _).andThen ((setRings_frame _ _).andThen ((setPorts_frame _ _).andThen
    ((setJob_frame _ _).andThen (setJobState_frame .running .start _) (ds := [.job, .feed]) ?_ ?_)
    (ds := [.job, .ports, .feed]) ?_ ?_) (ds := [.job, .rings, .ports, .feed]) ?_ ?_)
    (ds := [.job, .place, .rings, .ports, .feed]) ?_ ?_) ?_ ?_ <;> simp

theorem enterIdle_frame (cause : JobCause) (s : State) :
    unchangedBut [.job, .geo, .motion, .place, .pool, .composer, .rings, .ports, .feed] s (enterIdle cause s) := by
  refine (unchangedBut_ite (unchangedBut_refl _ s) (setJobState_frame .idle cause s)).andThen ((clearJob_frame _).andThen
    (closeAllDrained_frame _) (ds := [.geo, .motion, .place, .pool, .composer, .rings, .ports, .feed]) ?_ ?_) ?_ ?_ <;> simp

theorem ownStartJob_frame (s : State) : unchangedBut [.job, .motion, .place, .rings, .ports, .feed] s (ownStartJob s).1 := by
  refine owner_ite (refusal_frame _ s _) ?_
  split
  · exact refusal_frame _ s _
  · exact startJob_frame s

theorem ownStopJob_frame (s : State) :
    unchangedBut [.job, .geo, .motion, .place, .pool, .composer, .rings, .ports, .feed] s (ownStopJob s).1 := by
  refine owner_ite (refusal_frame _ s _) ?_
  refine ((setJobState_frame .stopping .stop s).andThen (stopComposer_frame _) (ds := [.job, .composer, .feed]) ?_ ?_).andThen
    (unchangedBut_ite (enterIdle_frame .stopComplete _) (unchangedBut_refl _ _)) ?_ ?_ <;> simp

theorem ownAbort_frame (s : State) :
    unchangedBut [.job, .geo, .motion, .place, .pool, .composer, .rings, .ports, .feed] s (ownAbort s).1 := by
  unfold ownAbort
  dsimp only
  exact enterIdle_frame .abort s

theorem recoverPort_frame (s : State) (h : Port) : unchangedBut [.geo, .ports, .feed] s (recoverPort s h) :=
  unchangedBut_ite (portRecovers_frame h s) (unchangedBut_refl _ s)

/-- The job taken to IDLE, with its notice if it was not there (R153, R155). -/
def toIdle (cause : JobCause) (s : State) : State := if s.job.state = .idle then s else setJobState .idle cause s

theorem toIdle_frame (cause : JobCause) (s : State) : unchangedBut [.job, .feed] s (toIdle cause s) :=
  unchangedBut_ite (unchangedBut_refl _ s) (setJobState_frame .idle cause s)

@[simp] theorem toIdle_state (cause : JobCause) (s : State) : (toIdle cause s).job.state = .idle := by
  unfold toIdle
  split
  · next hj => exact hj
  · simp [setJobState]

/-- An entry to IDLE: the job state, what the blocks clear, and the channels that drain by it. -/
theorem enterIdle_eq (cause : JobCause) (s : State) : enterIdle cause s = closeAllDrained (clearJob (toIdle cause s)) := by
  unfold enterIdle toIdle
  with_reducible rfl

/-- What Restart clears before it closes the channels and returns the ports (R155). -/
def restartCleared (s : State) : State :=
  let s := s.setCounters s.counters.clearCounts.clearAnnounced
  let s := s.setFeed { s.feed with noticesLost := false }
  let s := toIdle .restart s
  clearJob (s.setJob { s.job with firstHalt := .none })

/-- What Restart does once the job is cleared: the raw count, the template line being written, the channels and the ports (R155). -/
def restartRest (s : State) : State :=
  let s := s.setMotion { s.motion with rawCount := 0 }
  let s := closeAllChannels (s.setTemplates { s.templates with writing := none })
  allPorts.foldl recoverPort s

/-- Restart in its two parts. -/
theorem ownRestart_eq (s : State) : ownRestart s = (restartRest (restartCleared s), .plain .done) := by
  unfold ownRestart restartRest restartCleared toIdle
  with_reducible rfl

theorem restartCleared_frame (s : State) :
    unchangedBut [.job, .geo, .motion, .place, .pool, .composer, .rings, .ports, .counters, .feed] s (restartCleared s) := by
  have hcounts := (setCounters_frame s s.counters.clearCounts.clearAnnounced).andThen (setFeed_frame _ { s.feed with noticesLost := false })
    (ds := [.counters, .feed]) (by simp) (by simp)
  have hclear : ∀ (u : State) (x : Job),
      unchangedBut [.job, .geo, .motion, .place, .pool, .composer, .rings, .ports, .feed] u (clearJob (u.setJob x)) :=
    fun u x => (setJob_frame u x).andThen (clearJob_frame _) (by simp) (by simp)
  exact (hcounts.andThen (toIdle_frame .restart _) (ds := [.job, .counters, .feed]) (by simp) (by simp)).andThen (hclear _ _) (by simp) (by simp)

/-- The template line being written, the channels and the ports at a Restart. -/
theorem closeAndRecover_frame (s : State) (x : TemplateStore) :
    unchangedBut [.geo, .templates, .ports, .feed] s (allPorts.foldl recoverPort (closeAllChannels (s.setTemplates x))) :=
  ((setTemplates_frame s x).andThen (closeAllChannels_frame _) (ds := [.templates, .feed]) (by simp) (by simp)).andThen
    (unchangedBut_foldl recoverPort_frame allPorts _) (by simp) (by simp)

theorem restartRest_frame (s : State) : unchangedBut [.geo, .motion, .templates, .ports, .feed] s (restartRest s) := by
  unfold restartRest
  exact (setMotion_frame s _).andThen (closeAndRecover_frame _ _) (by simp) (by simp)

theorem ownRestart_frame (s : State) :
    unchangedBut [.job, .geo, .motion, .place, .templates, .pool, .composer, .rings, .ports, .counters, .feed] s (ownRestart s).1 := by
  rw [ownRestart_eq]
  dsimp only
  exact (restartCleared_frame s).andThen (restartRest_frame _) (by simp) (by simp)

/-! ### The requests -/

/-- The blocks a request can change, the reply and what follows it included. -/
def requestBlocks : Request → List Block
  | .identify => [.feed]
  | .statusReport _ => [.counters, .feed]
  | .setPlane .. => [.geo, .feed]
  | .setHead .. => [.geo, .ports, .feed]
  | .setSeam .. => [.geo, .feed]
  | .setNozzles .. => [.geo, .feed]
  | .readNozzles .. => [.feed]
  | .restoreHead _ => [.geo, .ports, .feed]
  | .setMotion .. => [.motion, .feed]
  | .setRatio .. => [.motion, .feed]
  | .setTrigger .. => [.place, .feed]
  | .setKeepWet .. => [.ports, .feed]
  | .setMemoryPlan .. => [.memory, .templates, .feed]
  | .defineTemplate .. => [.templates, .feed]
  | .dropTemplate _ => [.templates, .feed]
  | .queuePage .. => [.composer, .feed]
  | .mark .. => [.composer, .feed]
  | .openChannel .. => [.feed]
  | .closeChannel _ => [.feed]
  | .setNotices _ => [.feed]
  | .startJob => [.job, .motion, .place, .rings, .ports, .feed]
  | .stopJob => [.job, .geo, .motion, .place, .pool, .composer, .rings, .ports, .feed]
  | .abort => [.job, .geo, .motion, .place, .pool, .composer, .rings, .ports, .feed]
  | .restart => [.job, .geo, .motion, .place, .templates, .pool, .composer, .rings, .ports, .counters, .feed]

theorem feed_mem_blocks (r : Request) : [Block.feed] ⊆ (requestBlocks r) := by cases r <;> simp [requestBlocks]

theorem handle_frame (r : Request) (s : State) : unchangedBut (requestBlocks r) s (handle r s).1 := by
  cases r
  case identify => exact refusal_frame _ s _
  case statusReport => exact ownStatusReport_frame _ s
  case setPlane => exact (ownSetPlane_frame _ _ _ _ _ _ s).mono (by simp [requestBlocks])
  case setHead => exact ownSetHead_frame _ _ _ _ _ _ _ _ _ s
  case setSeam => exact (ownSetSeam_frame _ _ _ _ _ s).mono (by simp [requestBlocks])
  case setNozzles => exact (ownSetNozzles_frame _ _ _ _ _ s).mono (by simp [requestBlocks])
  case readNozzles port row first count =>
    rw [show (handle (.readNozzles port row first count) s).1 = s from ownReadNozzles_eq port row first count s]
    exact unchangedBut_refl _ s
  case restoreHead => exact ownRestoreHead_frame _ s
  case setMotion => exact (ownSetMotion_frame _ _ _ _ _ s).mono (by simp [requestBlocks])
  case setRatio => exact (ownSetRatio_frame _ _ s).mono (by simp [requestBlocks])
  case setTrigger => exact (ownSetTrigger_frame _ _ _ _ s).mono (by simp [requestBlocks])
  case setKeepWet => exact (ownSetKeepWet_frame _ _ _ s).mono (by simp [requestBlocks])
  case setMemoryPlan => exact (ownSetMemoryPlan_frame _ _ _ _ _ _ _ s).mono (by simp [requestBlocks])
  case defineTemplate => exact (ownDefineTemplate_frame _ _ s).mono (by simp [requestBlocks])
  case dropTemplate => exact (ownDropTemplate_frame _ s).mono (by simp [requestBlocks])
  case queuePage => exact (ownQueuePage_frame _ _ _ _ _ _ _ s).mono (by simp [requestBlocks])
  case mark => exact (ownMark_frame _ _ s).mono (by simp [requestBlocks])
  case openChannel => exact ownOpenChannel_frame _ _ _ s
  case closeChannel => exact ownCloseChannel_frame _ s
  case setNotices => exact setFeed_frame s _
  case startJob => exact ownStartJob_frame s
  case stopJob => exact ownStopJob_frame s
  case abort => exact ownAbort_frame s
  case restart => exact ownRestart_frame s

theorem completeStaged_frame (port : Byte) (x : Result) (s : State) : unchangedBut [.geo, .feed] s (completeStaged port x s) := by
  unfold completeStaged
  split
  · split
    · exact unchangedBut_ite (completeSwitch_frame _ s) (unchangedBut_refl _ s)
    · exact unchangedBut_refl _ s
  · exact unchangedBut_refl _ s

/-- What follows a reply in its event is a switch completed or a placement. -/
theorem afterReply_effects_frame (r : Request) (x : Result) (s : State) : unchangedBut [.geo, .place, .feed] s (afterReply r x s) := by
  by_cases h : x ≠ .done ∨ effectFollows r = false
  · rw [afterReply_eq_self h]
    exact unchangedBut_refl _ s
  · obtain ⟨hx, hf⟩ := not_or.mp h
    obtain rfl := not_not.mp hx
    cases r
    case setNozzles port _ _ _ _ => exact (completeStaged_frame port .done s).mono (by simp)
    case startJob => exact (placeContinuous_frame s).mono (by simp)
    all_goals exact absurd rfl hf

theorem afterReply_frame (r : Request) (x : Result) (s : State) : unchangedBut (requestBlocks r) s (afterReply r x s) := by
  by_cases h : x ≠ .done ∨ effectFollows r = false
  · rw [afterReply_eq_self h]
    exact unchangedBut_refl _ s
  · obtain ⟨hx, hf⟩ := not_or.mp h
    obtain rfl := not_not.mp hx
    cases r
    case setNozzles port _ _ _ _ => exact completeStaged_frame port .done s
    case startJob => exact (placeContinuous_frame s).mono (by simp [requestBlocks])
    all_goals exact absurd rfl hf

/-- Handling a request changes its blocks alone (R171). -/
theorem serve_frame (tag : Byte) (r : Request) (s : State) : unchangedBut (requestBlocks r) s (serve tag r s) :=
  unchangedBut_trans (handle_frame r s)
    (unchangedBut_trans ((placeReply_frame _ _ _ _).mono (feed_mem_blocks r)) (afterReply_frame r _ _))

/-! ### Invariants kept by a command -/

/-- What the end of an event and an event keep, its command keeps. -/
theorem act_keeps {P : State → Prop} {s t : State} {can : Bool} {event : State → State} (hfinish : ∀ u, P u → P (finish u))
    (hevent : P s → P (event s)) (h : act s can event = .next t) (hs : P s) : P t := by
  rcases act_cases h with ⟨-, -, rfl⟩ | ⟨-, rfl⟩
  · exact hfinish _ (hevent hs)
  · exact hs

/-- The same of a command on blocks. -/
theorem actOn_keeps {P : State → Prop} {s t : State} {blocks : List Nat} {event : State → State}
    (hfinish : ∀ u, P u → P (finish u)) (hevent : P s → P (event s)) (h : actOn s blocks event = .next t) (hs : P s) : P t := by
  rcases actOn_cases h with ⟨-, rfl⟩ | ⟨-, rfl⟩
  · exact hfinish _ (hevent hs)
  · exact hs

/-- What the handling of a request keeps, taking it from the queue keeps (R171). -/
theorem takeRequest_keeps {P : State → Prop} {s : State} (hfeed : ∀ (u : State) (x : Feed), P u → P (u.setFeed x))
    (hserve : ∀ (tag : Byte) (r : Request) (u : State), P u → P (serve tag r u)) (hs : P s) : P (takeRequest s) := by
  unfold takeRequest
  split
  · next q rest _ =>
    have htaken := hfeed s { s.feed with requests := rest } hs
    dsimp only
    split
    · exact hfeed _ _ htaken
    · exact hserve _ _ _ htaken
  · exact hs

/-- An invariant that every command, the beginning of training and a tick keep, and that does not read the waiting commands, is kept
by every step. -/
theorem step_keeps {P : State → Prop} (hpending : ∀ (u : State) (rest : List Instr), P u → P { u with pending := rest })
    (hexec : ∀ (c : Instr) (u t : State), P u → exec c u = .next t → P t) (hfeed : ∀ (u : State) (x : Feed), P u → P (u.setFeed x))
    (htick : ∀ u : State, P u → P (tick u)) {s t : State} (hs : P s) (h : step s = .next t) : P t := by
  unfold step at h
  split at h
  · next c rest _ => exact hexec c _ t (hpending s rest hs) h
  · unfold idleStep at h
    split at h
    · obtain rfl := Host.Outcome.next.inj h
      exact hfeed s _ hs
    · split at h
      · next c _ => exact hexec c s t hs h
      · obtain rfl := Host.Outcome.next.inj h
        exact htick s hs

end Sys2Proof.Machine
end

section
/-! # The blocks each event can change -/

namespace Sys2Proof.Machine

/-! ### The encoder's event -/

theorem forwardBoundary_frame (s : State) :
    unchangedBut [.motion, .place, .pool, .composer, .rings, .ports, .counters, .feed] s (forwardBoundary s) := by
  refine unchangedBut_ite ?_ ((setMotion_frame s _).andThen (bump_frame _ _) (by simp) (by simp))
  refine (setMotion_frame s _).andThen ((placementTick_frame _).andThen (rowsTick_frame _)
    (ds := [.place, .pool, .composer, .rings, .ports, .counters, .feed]) ?_ ?_) ?_ ?_ <;> simp

theorem reverseBoundary_frame (s : State) :
    unchangedBut [.job, .motion, .composer, .rings, .ports, .counters, .feed] s (reverseBoundary s) := by
  refine ((setMotion_frame s _).andThen (bump_frame _ _) (ds := [.motion, .counters, .feed]) ?_ ?_).andThen
    (unchangedBut_ite (raiseHalt_frame _ _ _) (unchangedBut_refl _ _)) ?_ ?_ <;> simp

theorem forwardCount_frame (s : State) :
    unchangedBut [.motion, .place, .pool, .composer, .rings, .ports, .counters, .feed] s (forwardCount s) := by
  refine (setMotion_frame s _).andThen (cs := [.motion, .place, .pool, .composer, .rings, .ports, .counters, .feed])
    (unchangedBut_ite (unchangedBut_refl _ _) ?_) (by simp) (by simp)
  unfold accumulateForward
  split
  · exact unchangedBut_ite ((setMotion_frame _ _).andThen (forwardBoundary_frame _) (by simp) (by simp))
      ((setMotion_frame _ _).mono (by simp))
  · exact unchangedBut_refl _ _

theorem reverseCount_frame (s : State) :
    unchangedBut [.job, .motion, .composer, .rings, .ports, .counters, .feed] s (reverseCount s) := by
  refine (setMotion_frame s _).andThen (cs := [.job, .motion, .composer, .rings, .ports, .counters, .feed])
    (unchangedBut_ite (unchangedBut_refl _ _) ?_) (by simp) (by simp)
  unfold accumulateReverse
  split
  · exact unchangedBut_ite ((setMotion_frame _ _).andThen (reverseBoundary_frame _) (by simp) (by simp))
      ((setMotion_frame _ _).mono (by simp))
  · exact unchangedBut_refl _ _

/-- The encoder's event by the decoder's verdict on the pair its accepted changes make (R40, R41). -/
theorem encoderAccept_eq (s : State) :
    encoderAccept s = match decodePair s.motion.sense s.motion.lastPair s.motion.taken.lastPair with
      | .forward => forwardCount (s.setMotion s.motion.taken)
      | .reverse => reverseCount (s.setMotion s.motion.taken)
      | .illegal => bump .encoderErrors (s.setMotion s.motion.taken) := rfl

theorem encoderAccept_frame (s : State) :
    unchangedBut [.job, .motion, .place, .pool, .composer, .rings, .ports, .counters, .feed] s (encoderAccept s) := by
  rw [encoderAccept_eq]
  split
  · exact (setMotion_frame s _).andThen (forwardCount_frame _) (by simp) (by simp)
  · exact (setMotion_frame s _).andThen (reverseCount_frame _) (by simp) (by simp)
  · exact (setMotion_frame s _).andThen (bump_frame _ _) (by simp) (by simp)

/-! ### Commands -/

theorem act_frame {bs : List Block} {s t : State} {can : Bool} {event : State → State} (hfeed : [.feed] ⊆ bs)
    (hevent : unchangedBut bs s (event s)) (h : act s can event = .next t) : unchangedBut bs s t :=
  act_keeps (P := unchangedBut bs s) (fun u hu => unchangedBut_trans hu ((finish_frame u).mono hfeed)) (fun _ => hevent) h
    (unchangedBut_refl bs s)

theorem actOn_frame {bs : List Block} {s t : State} {blocks : List Nat} {event : State → State} (hfeed : [.feed] ⊆ bs)
    (hevent : unchangedBut bs s (event s)) (h : actOn s blocks event = .next t) : unchangedBut bs s t :=
  actOn_keeps (P := unchangedBut bs s) (fun u hu => unchangedBut_trans hu ((finish_frame u).mono hfeed)) (fun _ => hevent) h
    (unchangedBut_refl bs s)

/-- A command that changed nothing. -/
theorem next_self_frame {bs : List Block} {s t : State} (h : (.next s : Host.Outcome State Fault Refusal) = .next t) :
    unchangedBut bs s t :=
  Host.Outcome.next.inj h ▸ unchangedBut_refl bs s

/-- A request command changes the blocks of its request alone. -/
theorem request_frame {tag : Byte} {r : Request} {s t : State} (h : request tag r s = .next t) : unchangedBut (requestBlocks r) s t :=
  act_frame (feed_mem_blocks r) (serve_frame tag r s) h

/-- Every block of the part; outside it are the waiting commands, the time, the pins and the RESET input. -/
def insideBlocks : List Block :=
  [.job, .geo, .motion, .place, .memory, .templates, .pool, .composer, .rings, .ports, .counters, .feed]

theorem requestBlocks_subset (r : Request) : requestBlocks r ⊆ insideBlocks := by
  cases r <;> simp [requestBlocks, insideBlocks]

theorem takeRequest_frame (s : State) : unchangedBut insideBlocks s (takeRequest s) :=
  takeRequest_keeps (P := unchangedBut insideBlocks s)
    (fun u x hu => unchangedBut_trans hu ((setFeed_frame u x).mono (by simp [insideBlocks])))
    (fun tag r u hu => unchangedBut_trans hu ((serve_frame tag r u).mono (requestBlocks_subset r))) (unchangedBut_refl _ s)

section

variable {s t : State}

theorem exec_stopCompletion_frame (h : exec .stopCompletion s = .next t) :
    unchangedBut [.job, .geo, .motion, .place, .pool, .composer, .rings, .ports, .feed] s t :=
  act_frame (by simp) (enterIdle_frame .stopComplete s) h

theorem exec_mapSwitchComplete_frame {p : Plane} (h : exec (.mapSwitchComplete p) s = .next t) : unchangedBut [.geo, .feed] s t :=
  act_frame (by simp) (completeSwitch_frame p s) h

theorem exec_encoderFilterAccept_frame (h : exec .encoderFilterAccept s = .next t) :
    unchangedBut [.job, .motion, .place, .pool, .composer, .rings, .ports, .counters, .feed] s t :=
  act_frame (by simp) (encoderAccept_frame s) h

theorem exec_pdFilterAccept_frame {i : PdIx} (h : exec (.pdFilterAccept i) s = .next t) :
    unchangedBut [.place, .counters, .feed] s t :=
  act_frame (by simp) (pdAccept_frame i s) h

theorem exec_continuousPlacement_frame (h : exec .continuousPlacement s = .next t) : unchangedBut [.place, .feed] s t :=
  act_frame (by simp) ((placeContinuous_frame s).mono (by simp)) h

theorem exec_headFault_frame {x : Port} (h : exec (.headFault x) s = .next t) :
    unchangedBut [.job, .geo, .composer, .rings, .ports, .counters, .feed] s t :=
  act_frame (by simp) (portOffline_frame x s) h

theorem exec_loadGrant_frame {x : Port} (h : exec (.loadGrant x) s = .next t) : unchangedBut [.rings, .ports, .feed] s t :=
  act_frame (by simp) ((grantLoad_frame x s).mono (by simp)) h

theorem exec_loadComplete_frame {x : Port} (h : exec (.loadComplete x) s = .next t) :
    unchangedBut [.rings, .ports, .counters, .feed] s t := by
  change execLoadComplete x s = .next t at h
  unfold execLoadComplete at h
  split at h
  · exact actOn_frame (by simp) (completeLoad_frame _ _ _ _ _ s) h
  · exact next_self_frame h

theorem exec_fire_frame {x : Port} {k : RowIx} (h : exec (.fire x k) s = .next t) : unchangedBut [.ports, .counters, .feed] s t :=
  act_frame (by simp) (fireNow_frame x k s) h

theorem exec_fireWindowEnd_frame {x : Port} {k : RowIx} (h : exec (.fireWindowEnd x k) s = .next t) :
    unchangedBut [.ports, .feed] s t :=
  act_frame (event := fun s => s.updRow x k (fun r => { r with window := none })) (by simp) ((updRow_frame s x k _).mono (by simp)) h

theorem exec_keepWetExpiry_frame {x : Port} (h : exec (.keepWetExpiry x) s = .next t) :
    unchangedBut [.ports, .counters, .feed] s t :=
  act_frame (by simp) (keepWetExpire_frame x s) h

theorem exec_keepWetPulse_frame {x : Port} (h : exec (.keepWetPulse x) s = .next t) : unchangedBut [.ports, .counters, .feed] s t :=
  act_frame (by simp) (keepWetPulse_frame x s) h

theorem exec_composeBegin_frame (h : exec .composeBegin s = .next t) : unchangedBut [.composer, .feed] s t :=
  act_frame (by simp) ((setComposer_frame s _).mono (by simp)) h

theorem exec_compositionComplete_frame (h : exec .compositionComplete s = .next t) :
    unchangedBut [.memory, .pool, .composer, .rings, .counters, .feed] s t := by
  change execCompositionComplete s = .next t at h
  unfold execCompositionComplete at h
  split at h
  · exact actOn_frame (by simp) (completeComposition_frame _ s) h
  · exact next_self_frame h

theorem exec_frameHeaderReceived_frame {sync channel kind tag check : Byte} {length : BitVec 16}
    (h : exec (.frameHeaderReceived sync channel kind tag length check) s = .next t) : unchangedBut [.counters, .feed] s t :=
  act_frame (by simp) (headerReceived_frame _ s) h

theorem exec_frameReceived_frame {payload : List Byte} {check : BitVec 32} (h : exec (.frameReceived payload check) s = .next t) :
    unchangedBut [.feed] s t := by
  change execFrameReceived payload check s = .next t at h
  unfold execFrameReceived at h
  split at h
  · exact act_frame (by simp) (setFeed_frame s _) h
  · exact next_self_frame h

theorem exec_requestTaken_frame (h : exec .requestTaken s = .next t) : unchangedBut insideBlocks s t :=
  act_frame (by simp [insideBlocks]) (takeRequest_frame s) h

theorem exec_patchFrame_frame {c : DataCh} (h : exec (.patchFrame c) s = .next t) : unchangedBut [.pool, .counters, .feed] s t := by
  change execPatchFrame c s = .next t at h
  unfold execPatchFrame at h
  split at h
  · exact act_frame (by simp) (takePatch_frame _ _ s) h
  · exact next_self_frame h

theorem exec_templateLineFrame_frame {c : DataCh} (h : exec (.templateLineFrame c) s = .next t) :
    unchangedBut [.templates, .counters, .feed] s t := by
  change execTemplateLineFrame c s = .next t at h
  unfold execTemplateLineFrame at h
  split at h
  · exact act_frame (by simp) (takeTemplateLine_frame _ _ s) h
  · exact next_self_frame h

theorem exec_templateLineWriteComplete_frame (h : exec .templateLineWriteComplete s = .next t) :
    unchangedBut [.memory, .templates, .feed] s t := by
  change execTemplateLineWriteComplete s = .next t at h
  unfold execTemplateLineWriteComplete at h
  split at h
  · exact actOn_frame (by simp) (finishLineWrite_frame _ s) h
  · exact next_self_frame h

theorem exec_patchWriteComplete_frame (h : exec .patchWriteComplete s = .next t) :
    unchangedBut [.memory, .pool, .composer, .feed] s t := by
  change execPatchWriteComplete s = .next t at h
  unfold execPatchWriteComplete at h
  split at h
  · exact actOn_frame (by simp) ((finishPatchWrite_frame _ s).mono (by simp)) h
  · exact next_self_frame h

theorem exec_channelDrained_frame {c : DataCh} (h : exec (.channelDrained c) s = .next t) : unchangedBut [.feed] s t :=
  act_frame (by simp) (closeDrained_frame c s) h

theorem exec_creditFrameSent_frame (h : exec .creditFrameSent s = .next t) : unchangedBut [.feed] s t := by
  change execCreditFrameSent s = .next t at h
  unfold execCreditFrameSent at h
  split at h
  · exact act_frame (by simp) (creditSent_frame _ _ s) h
  · exact next_self_frame h

theorem exec_frameSent_frame (h : exec .frameSent s = .next t) : unchangedBut [.feed] s t :=
  act_frame (by simp) (frameSent_frame s) h

theorem exec_linkUp_frame (h : exec .linkUp s = .next t) : unchangedBut [.feed] s t := act_frame (by simp) (setFeed_frame s _) h

theorem exec_trainingTimeout_frame (h : exec .trainingTimeout s = .next t) : unchangedBut [.feed] s t :=
  act_frame (by simp) (linkDown_frame s) h

theorem exec_wordLockLoss_frame (h : exec .wordLockLoss s = .next t) : unchangedBut [.feed] s t :=
  act_frame (by simp) (linkDown_frame s) h

end

end Sys2Proof.Machine
end

section
/-! # The Motion Unit's invariant (R36, R40, R43, R44, R46, R50)

The invariant as a property of the Motion Unit and the job state, kept by each operation of the unit, and the commands that leave both
alone. -/

namespace Sys2Proof.Machine

/-- `motionOk`, as a property of the Motion Unit in a job state. -/
structure MotionSound (j : JobState) (m : Motion) : Prop where
  ratio : ∀ r ∈ m.ratio, ratioOk r ∧ m.acc < r.m
  pending : ∀ r ∈ m.pendingRatio, ratioOk r
  below : m.p ≤ m.h
  start : 0 ≤ m.h
  set : j ≠ .idle → m.ratio.isSome
  pair : m.lastPair = (m.inputA.level, m.inputB.level)
  rest : j = .idle → m.acc = 0 ∧ m.p = 0 ∧ m.h = 0 ∧ m.lastBoundary = none ∧ m.period = none ∧ m.pendingRatio = none

theorem motionOk_iff {s : State} : motionOk s ↔ MotionSound s.job.state s.motion :=
  ⟨fun ⟨h1, h2, h3, h4, h5, h6, h7⟩ => ⟨h1, h2, h3, h4, h5, h6, h7⟩, fun ⟨h1, h2, h3, h4, h5, h6, h7⟩ => ⟨h1, h2, h3, h4, h5, h6, h7⟩⟩

theorem reset_motionOk : motionOk State.reset := by decide

/-- The invariant reads the Motion Unit and whether there is a job. -/
theorem MotionSound.ofJob {j k : JobState} {m : Motion} (h : MotionSound j m) (hk : k = .idle ↔ j = .idle) : MotionSound k m :=
  { h with set := fun hn => h.set fun e => hn (hk.mpr e), rest := fun e => h.rest (hk.mp e) }

/-- An event that leaves the Motion Unit alone and neither enters nor leaves IDLE keeps the invariant. -/
theorem motionOk_of_eq {s t : State} (hm : t.motion = s.motion) (hj : t.job.state = .idle ↔ s.job.state = .idle) (h : motionOk s) :
    motionOk t :=
  motionOk_iff.mpr (hm ▸ (motionOk_iff.mp h).ofJob hj)

/-- An event that leaves the Motion Unit and Job Control alone keeps the invariant. -/
theorem motionOk_of_frame {bs : List Block} {s t : State} (h : unchangedBut bs s t) (hm : .motion ∉ bs) (hj : .job ∉ bs)
    (hs : motionOk s) : motionOk t :=
  motionOk_of_eq (h .motion hm) (by rw [show t.job = s.job from h .job hj]) hs

theorem motionOk_finish {s : State} (h : motionOk s) : motionOk (finish s) := motionOk_of_frame (finish_frame s) (by simp) (by simp) h

/-! ### The operations of the Motion Unit -/

/-- R52: a pending ratio applied keeps the accumulator below M. -/
theorem MotionSound.applyPending {j : JobState} {m : Motion} (h : MotionSound j m) (hj : j ≠ .idle) :
    MotionSound j m.applyPending := by
  unfold Motion.applyPending
  split
  · next r old hr hold =>
    obtain ⟨hn, hnm, hm⟩ := h.pending r hr
    obtain ⟨-, hacc⟩ := h.ratio old hold
    have hbelow : m.acc * r.m / old.m < r.m := Nat.div_lt_of_lt_mul (Nat.mul_lt_mul_of_pos_right hacc (by omega))
    exact { h with
      ratio := by rintro _ ⟨⟩; exact ⟨⟨hn, hnm, hm⟩, hbelow⟩
      pending := by rintro _ ⟨⟩
      set := fun _ => rfl
      rest := fun e => absurd e hj }
  · exact h

/-- The accumulator set below M. -/
theorem MotionSound.withAcc {j : JobState} {m : Motion} (h : MotionSound j m) (hj : j ≠ .idle) {a : Nat}
    (ha : ∀ r ∈ m.ratio, a < r.m) : MotionSound j { m with acc := a } :=
  { h with ratio := fun r hr => ⟨(h.ratio r hr).1, ha r hr⟩, rest := fun e => absurd e hj }

/-- R46: a print tick takes P and H to the same position. -/
theorem MotionSound.printTick {j : JobState} {m : Motion} (h : MotionSound j m) (hj : j ≠ .idle) {p : Int} (hp : 0 ≤ p) (now : Nat) :
    MotionSound j (m.printTick p now) :=
  MotionSound.applyPending
    { h with below := le_refl p, start := hp, rest := fun e => absurd e hj } hj

/-- R47: re-travel leaves P at or below H. -/
theorem MotionSound.reTravel {j : JobState} {m : Motion} (h : MotionSound j m) (hj : j ≠ .idle) {p : Int} (hp : p ≤ m.h) (now : Nat) :
    MotionSound j (m.reTravel p now) :=
  MotionSound.applyPending { h with below := hp, rest := fun e => absurd e hj } hj

/-- R38, R40: the accepted changes give the decoder its new pair. -/
theorem MotionSound.taken {j : JobState} {m : Motion} (h : MotionSound j m) : MotionSound j m.taken :=
  { h with pair := rfl }

/-- R42: the raw encoder count is free. -/
theorem MotionSound.withRawCount {j : JobState} {m : Motion} (h : MotionSound j m) (n : BitVec 32) :
    MotionSound j { m with rawCount := n } := { h with }

/-- R43: the Motion Unit on an entry to IDLE. -/
theorem MotionSound.toIdle {j : JobState} {m : Motion} (h : MotionSound j m) : MotionSound .idle m.toIdle where
  ratio := by
    intro r hr
    have hpos : ratioOk r → ratioOk r ∧ 0 < r.m := fun hk => ⟨hk, by omega⟩
    apply hpos
    simp only [Motion.toIdle] at hr
    cases hp : m.pendingRatio with
    | some q =>
      rw [hp] at hr
      obtain rfl : q = r := Option.some.inj hr
      exact h.pending q hp
    | none =>
      rw [hp] at hr
      exact (h.ratio r hr).1
  pending := by rintro _ ⟨⟩
  below := le_refl 0
  start := le_refl 0
  set := fun e => absurd rfl e
  pair := h.pair
  rest := fun _ => ⟨rfl, rfl, rfl, rfl, rfl, rfl⟩

/-- R150: the Motion Unit at the start of a job. -/
theorem MotionSound.started {m : Motion} (h : MotionSound .idle m) (hr : m.ratio ≠ none) :
    MotionSound .running { m with acc := 0, p := 0, h := 0, lastBoundary := none, period := none } :=
  { h with
    ratio := fun r hm => ⟨(h.ratio r hm).1, Nat.zero_lt_of_lt (h.ratio r hm).2⟩
    below := le_refl 0, start := le_refl 0, set := fun _ => Option.isSome_iff_ne_none.mpr hr, rest := by rintro ⟨⟩ }

@[simp] theorem InputFilter.sample_level (x : InputFilter) (setting : Nat) (pin : Bool) : (x.sample setting pin).level = x.level := by
  unfold InputFilter.sample
  split <;> rfl

/-! ### The encoder's event -/

/-- What a forward boundary does at the Motion Unit (R46, R47). -/
theorem forwardBoundary_motion (s : State) :
    (forwardBoundary s).motion = if s.motion.h < s.motion.p + 1 then s.motion.printTick (s.motion.p + 1) s.now
      else s.motion.reTravel (s.motion.p + 1) s.now := by
  unfold forwardBoundary
  dsimp only
  split
  · exact (rowsTick_frame _ .motion (by simp)).trans (placementTick_frame _ .motion (by simp))
  · simp

/-- What a reverse boundary does at the Motion Unit (R47). -/
theorem reverseBoundary_motion (s : State) : (reverseBoundary s).motion = s.motion.reTravel (s.motion.p - 1) s.now := by
  unfold reverseBoundary
  dsimp only
  split
  · exact (raiseHalt_frame _ _ _ .motion (by simp)).trans (by simp)
  · simp

/-- A halt neither enters nor leaves IDLE (R156). -/
theorem raiseHalt_idle_iff (first : HaltCause) (cause : JobCause) (s : State) :
    (raiseHalt first cause s).job.state = .idle ↔ s.job.state = .idle := by
  by_cases h : s.job.state = .running ∨ s.job.state = .stopping
  · rw [raiseHalt_of_active first cause h, show (enterHalted _).job = _ from enterHalted_frame _ .job (by simp), placeNotice_job,
      State.setJob_job]
    rcases h with h | h <;> simp [h]
  · rw [raiseHalt_of_inactive first cause h]
    split <;> simp

theorem reverseBoundary_idle_iff (s : State) : (reverseBoundary s).job.state = .idle ↔ s.job.state = .idle := by
  unfold reverseBoundary
  dsimp only
  split
  · rw [raiseHalt_idle_iff]; simp
  · simp

/-- A forward count in IDLE moves the raw encoder count alone (R42, R50). -/
theorem forwardCount_idle {s : State} (hj : s.job.state = .idle) :
    forwardCount s = s.setMotion { s.motion with rawCount := s.motion.rawCount + 1 } := if_pos hj

/-- A forward count that fills no line (R44). -/
theorem forwardCount_within {s : State} {r : Ratio} (hj : s.job.state ≠ .idle) (hr : s.motion.ratio = some r)
    (h : s.motion.acc + r.n < r.m) :
    forwardCount s = s.setMotion { s.motion with rawCount := s.motion.rawCount + 1, acc := s.motion.acc + r.n } := by
  have ha : forwardCount s = accumulateForward (s.setMotion { s.motion with rawCount := s.motion.rawCount + 1 }) := if_neg hj
  rw [ha, accumulateForward]
  simp only [State.setMotion_motion, hr]
  exact if_neg (by omega)

/-- A forward count that fills a line makes a forward boundary (R44). -/
theorem forwardCount_boundary {s : State} {r : Ratio} (hj : s.job.state ≠ .idle) (hr : s.motion.ratio = some r)
    (h : r.m ≤ s.motion.acc + r.n) :
    forwardCount s = forwardBoundary (s.setMotion
      { s.motion with rawCount := s.motion.rawCount + 1, acc := s.motion.acc + r.n - r.m }) := by
  have ha : forwardCount s = accumulateForward (s.setMotion { s.motion with rawCount := s.motion.rawCount + 1 }) := if_neg hj
  rw [ha, accumulateForward]
  simp only [State.setMotion_motion, hr]
  exact if_pos h

/-- A reverse count in IDLE moves the raw encoder count alone (R42, R50). -/
theorem reverseCount_idle {s : State} (hj : s.job.state = .idle) :
    reverseCount s = s.setMotion { s.motion with rawCount := s.motion.rawCount - 1 } := if_pos hj

/-- A reverse count that empties no line (R45). -/
theorem reverseCount_within {s : State} {r : Ratio} (hj : s.job.state ≠ .idle) (hr : s.motion.ratio = some r)
    (h : r.n ≤ s.motion.acc) :
    reverseCount s = s.setMotion { s.motion with rawCount := s.motion.rawCount - 1, acc := s.motion.acc - r.n } := by
  have ha : reverseCount s = accumulateReverse (s.setMotion { s.motion with rawCount := s.motion.rawCount - 1 }) := if_neg hj
  rw [ha, accumulateReverse]
  simp only [State.setMotion_motion, hr]
  exact if_neg (by omega)

/-- A reverse count that empties a line makes a reverse boundary (R45). -/
theorem reverseCount_boundary {s : State} {r : Ratio} (hj : s.job.state ≠ .idle) (hr : s.motion.ratio = some r)
    (h : s.motion.acc < r.n) :
    reverseCount s = reverseBoundary (s.setMotion
      { s.motion with rawCount := s.motion.rawCount - 1, acc := s.motion.acc + r.m - r.n }) := by
  have ha : reverseCount s = accumulateReverse (s.setMotion { s.motion with rawCount := s.motion.rawCount - 1 }) := if_neg hj
  rw [ha, accumulateReverse]
  simp only [State.setMotion_motion, hr]
  exact if_pos h

theorem forwardBoundary_motionOk {s : State} (h : motionOk s) (hj : s.job.state ≠ .idle) : motionOk (forwardBoundary s) := by
  have hm := motionOk_iff.mp h
  have hstart := hm.start
  rw [motionOk_iff, forwardBoundary_motion, show (forwardBoundary s).job = s.job from forwardBoundary_frame s .job (by simp)]
  split
  · exact hm.printTick hj (by have := hm.below; omega) _
  · exact hm.reTravel hj (by omega) _

theorem reverseBoundary_motionOk {s : State} (h : motionOk s) (hj : s.job.state ≠ .idle) : motionOk (reverseBoundary s) := by
  have hm := motionOk_iff.mp h
  have hbelow := hm.below
  refine motionOk_iff.mpr (MotionSound.ofJob (j := s.job.state) ?_ (reverseBoundary_idle_iff s))
  rw [reverseBoundary_motion]
  exact hm.reTravel hj (by omega) _

/-- A count keeps the invariant: the accumulator stays below M, and a boundary keeps the rest. -/
theorem forwardCount_motionOk {s : State} (h : motionOk s) : motionOk (forwardCount s) := by
  have hm := (motionOk_iff.mp h).withRawCount (s.motion.rawCount + 1)
  by_cases hj : s.job.state = .idle
  · rw [forwardCount_idle hj]
    exact motionOk_iff.mpr hm
  obtain ⟨r, hr⟩ := Option.isSome_iff_exists.mp (hm.set hj)
  have hr : s.motion.ratio = some r := hr
  obtain ⟨hok, hacc⟩ := hm.ratio r hr
  have hbelow : ∀ a < r.m, ∀ q ∈ s.motion.ratio, a < q.m := fun a ha q hq => by
    rwa [Option.some.inj (hq.symm.trans hr)]
  by_cases hfull : r.m ≤ s.motion.acc + r.n
  · rw [forwardCount_boundary hj hr hfull]
    exact forwardBoundary_motionOk (motionOk_iff.mpr (hm.withAcc hj (hbelow _ (by dsimp only at hacc; omega)))) hj
  · rw [forwardCount_within hj hr (by omega)]
    exact motionOk_iff.mpr (hm.withAcc hj (hbelow _ (by omega)))

theorem reverseCount_motionOk {s : State} (h : motionOk s) : motionOk (reverseCount s) := by
  have hm := (motionOk_iff.mp h).withRawCount (s.motion.rawCount - 1)
  by_cases hj : s.job.state = .idle
  · rw [reverseCount_idle hj]
    exact motionOk_iff.mpr hm
  obtain ⟨r, hr⟩ := Option.isSome_iff_exists.mp (hm.set hj)
  have hr : s.motion.ratio = some r := hr
  obtain ⟨hok, hacc⟩ := hm.ratio r hr
  have hbelow : ∀ a < r.m, ∀ q ∈ s.motion.ratio, a < q.m := fun a ha q hq => by
    rwa [Option.some.inj (hq.symm.trans hr)]
  by_cases hempty : s.motion.acc < r.n
  · rw [reverseCount_boundary hj hr hempty]
    exact reverseBoundary_motionOk (motionOk_iff.mpr (hm.withAcc hj (hbelow _ (by omega)))) hj
  · rw [reverseCount_within hj hr (by omega)]
    exact motionOk_iff.mpr (hm.withAcc hj (hbelow _ (by dsimp only at hacc; omega)))

theorem encoderAccept_motionOk {s : State} (h : motionOk s) : motionOk (encoderAccept s) := by
  have htaken : motionOk (s.setMotion s.motion.taken) := motionOk_iff.mpr (motionOk_iff.mp h).taken
  rw [encoderAccept_eq]
  split
  · exact forwardCount_motionOk htaken
  · exact reverseCount_motionOk htaken
  · exact motionOk_of_frame (bump_frame _ _) (by simp) (by simp) htaken

/-! ### Job Control -/

/-- R153: the job cleared in IDLE leaves the Motion Unit at rest. -/
theorem clearJob_motionOk {s : State} {j : JobState} (h : MotionSound j s.motion) (hj : s.job.state = .idle) : motionOk (clearJob s) := by
  have hjob : (clearJob s).job = s.job := clearJob_frame s .job (by simp)
  have hmotion : (clearJob s).motion = s.motion.toIdle := by
    unfold clearJob
    rw [show (completeSwitches _).motion = _ from completeSwitches_frame _ .motion (by simp), dropAllLines, State.setPorts_motion,
      State.setRings_motion, show (clearComposer _).motion = _ from clearComposer_frame _ .motion (by simp), State.setPlace_motion,
      State.setMotion_motion]
  rw [motionOk_iff, hjob, hmotion, hj]
  exact h.toIdle

/-- R153: every entry to IDLE keeps the invariant. -/
theorem enterIdle_motionOk (cause : JobCause) {s : State} (h : motionOk s) : motionOk (enterIdle cause s) := by
  have hcleared : motionOk (clearJob (toIdle cause s)) := by
    refine clearJob_motionOk (j := s.job.state) ?_ (toIdle_state cause s)
    rw [show (toIdle cause s).motion = s.motion from toIdle_frame cause s .motion (by simp)]
    exact motionOk_iff.mp h
  rw [enterIdle_eq]
  exact motionOk_of_frame (closeAllDrained_frame _) (by simp) (by simp) hcleared

theorem startJob_motionOk {s : State} (h : motionOk s) (hj : s.job.state = .idle) (hr : s.motion.ratio ≠ none) : motionOk (startJob s) := by
  have hmotion : (startJob s).motion = { s.motion with acc := 0, p := 0, h := 0, lastBoundary := none, period := none } := by
    simp [startJob, setJobState]
  have hjob : (startJob s).job.state = .running := by simp [startJob, setJobState]
  rw [motionOk_iff, hmotion, hjob]
  exact (hj ▸ motionOk_iff.mp h).started hr

theorem ownStartJob_motionOk {s : State} (h : motionOk s) : motionOk (ownStartJob s).1 := by
  unfold ownStartJob
  split
  · exact h
  · next hj =>
    split
    · exact h
    · next hc => exact startJob_motionOk h (not_not.mp hj) ((test_noMotion s).mp (startCheck_eq_none.mp hc .noMotion))

theorem ownStopJob_motionOk {s : State} (h : motionOk s) : motionOk (ownStopJob s).1 := by
  unfold ownStopJob
  split
  · exact h
  · next hj =>
    have hstop : motionOk (stopComposer (setJobState .stopping .stop s)) := by
      refine motionOk_of_frame (stopComposer_frame _) (by simp) (by simp) (motionOk_of_eq (s := s) ?_ ?_ h)
      · exact setJobState_frame _ _ s .motion (by simp)
      · simp [setJobState, not_not.mp hj]
    dsimp only
    split
    · exact enterIdle_motionOk _ hstop
    · exact hstop

theorem ownAbort_motionOk {s : State} (h : motionOk s) : motionOk (ownAbort s).1 := by
  unfold ownAbort
  dsimp only
  exact enterIdle_motionOk .abort h

theorem ownRestart_motionOk {s : State} (h : motionOk s) : motionOk (ownRestart s).1 := by
  have hcleared : motionOk (restartCleared s) := by
    unfold restartCleared
    dsimp only
    refine clearJob_motionOk (j := s.job.state) ?_ (by rw [State.setJob_job]; exact toIdle_state _ _)
    rw [State.setJob_motion, show (toIdle _ _).motion = _ from toIdle_frame _ _ .motion (by simp), State.setFeed_motion,
      State.setCounters_motion]
    exact motionOk_iff.mp h
  rw [ownRestart_eq]
  dsimp only
  generalize restartCleared s = u at hcleared
  unfold restartRest
  exact motionOk_of_frame (closeAndRecover_frame _ _) (by simp) (by simp)
    (motionOk_iff.mpr ((motionOk_iff.mp hcleared).withRawCount 0))

/-! ### Requests -/

/-- The values a Set Motion or a Set Ratio in range carries are a ratio (R36). -/
theorem ratioOf_ok {n m : BitVec 24} {r : Ratio} (h : ratioOf n m = some r) : ratioOk r := by
  obtain ⟨⟨hn, hnm⟩, rfl⟩ := ratioOf_eq_some.mp h
  exact ⟨hn, hnm, by have := m.isLt; dsimp only; omega⟩

/-- R37, R51: a ratio set in IDLE, where the accumulator is 0. -/
theorem MotionSound.withRatio {m : Motion} (h : MotionSound .idle m) {r : Ratio} (hr : ratioOk r) :
    MotionSound .idle { m with ratio := some r } :=
  { h with
    ratio := by
      rintro _ ⟨⟩
      obtain ⟨hacc, -⟩ := h.rest rfl
      exact ⟨hr, by dsimp only; omega⟩
    set := fun _ => rfl }

theorem ownSetMotion_motionOk {sense filter : Byte} {limit : BitVec 16} {n m : BitVec 24} {s : State} (h : motionOk s) :
    motionOk (ownSetMotion sense filter limit n m s).1 := by
  unfold ownSetMotion
  split
  · next e r he hr =>
    split
    · exact h
    · next hj =>
      have hidle := not_not.mp hj
      have hratio := (hidle ▸ motionOk_iff.mp h).withRatio (ratioOf_ok hr)
      exact motionOk_iff.mpr { (show MotionSound s.job.state { s.motion with ratio := some r } from hidle ▸ hratio) with }
  · exact h

theorem ownSetRatio_motionOk {n m : BitVec 24} {s : State} (h : motionOk s) : motionOk (ownSetRatio n m s).1 := by
  unfold ownSetRatio
  split
  · exact h
  · next r hr =>
    split
    · next hj =>
      refine motionOk_iff.mpr ?_
      rw [State.setMotion_job, hj]
      exact (hj ▸ motionOk_iff.mp h).withRatio (ratioOf_ok hr)
    · next hj =>
      exact motionOk_iff.mpr { motionOk_iff.mp h with
        pending := by rintro _ ⟨⟩; exact ratioOf_ok hr
        rest := fun e => absurd e hj }

/-- A request keeps the invariant: six of them move the Motion Unit or the job. -/
theorem handle_motionOk (r : Request) {s : State} (h : motionOk s) : motionOk (handle r s).1 := by
  by_cases hb : Block.motion ∉ requestBlocks r ∧ Block.job ∉ requestBlocks r
  · exact motionOk_of_frame (handle_frame r s) hb.1 hb.2 h
  · cases r
    case setMotion => exact ownSetMotion_motionOk h
    case setRatio => exact ownSetRatio_motionOk h
    case startJob => exact ownStartJob_motionOk h
    case stopJob => exact ownStopJob_motionOk h
    case abort => rw [show handle .abort = ownAbort from rfl]; exact ownAbort_motionOk h
    case restart => rw [show handle .restart = ownRestart from rfl]; exact ownRestart_motionOk h
    all_goals exact absurd (by simp [requestBlocks]) hb

theorem serve_motionOk (tag : Byte) (r : Request) {s : State} (h : motionOk s) : motionOk (serve tag r s) := by
  have hplaced : motionOk (placeReply tag r.code (handle r s).2 (handle r s).1) :=
    motionOk_of_frame (placeReply_frame _ _ _ _) (by simp) (by simp) (handle_motionOk r h)
  exact motionOk_of_frame (afterReply_effects_frame r _ _) (by simp) (by simp) hplaced

/-! ### Commands and steps -/

/-- The end of a head fault: the job neither enters nor leaves IDLE (R127, R128). -/
theorem portOffline_idle_iff (x : Port) (s : State) : (portOffline x s).job.state = .idle ↔ s.job.state = .idle := by
  have hplain : (setPortState x .offline (s.updPort x (fun q => { q with faultCount := 0, keepWet := q.keepWet.disarm }))).job = s.job := by
    simp [setPortState]
  unfold portOffline
  split
  · rw [hplain]
  · rw [hplain]
  · next p _ _ =>
    have hrows : ∀ u : State, (allRows.foldl (fun u k => if (u.row x k).line.isSome then giveUp x k p .abandoned u else u) u).job = u.job :=
      fun u => unchangedBut_foldl (bs := [.rings, .ports])
        (fun u k => unchangedBut_ite (giveUp_frame x k p (by simp) u) (unchangedBut_refl _ u)) allRows u .job (by simp)
    have hlast : ∀ u : State, (if (u.geo.heads.get x).policy = .halt then raiseHalt (.headFault x) (.headFault x) u else u).job.state = .idle
        ↔ u.job.state = .idle := by
      intro u
      split
      · exact raiseHalt_idle_iff _ _ u
      · rfl
    unfold offlineInJob
    dsimp only
    rw [hlast, placeNotice_job, State.updPort_job, show (reformRetire p _).job = _ from reformRetire_frame p _ .job (by simp), hrows,
      State.updPort_job, State.setGeo_job]

/-- A tick samples the inputs, which moves no accepted level but at the first sample, when the pair moves with them (R38, R39). -/
theorem tick_motionOk {s : State} (h : motionOk s) : motionOk (tick s) := by
  have hm := motionOk_iff.mp h
  unfold tick
  dsimp only
  split
  · exact h
  · split
    · exact motionOk_iff.mpr { hm with pair := by simpa [sampleFaults, sampleFilters] using hm.pair }
    · exact motionOk_iff.mpr { hm with pair := rfl }

theorem exec_keeps_motionOk (c : Instr) (s t : State) (hs : motionOk s) (h : exec c s = .next t) : motionOk t := by
  cases c
  case stopCompletion => exact act_keeps (fun _ => motionOk_finish) (enterIdle_motionOk .stopComplete) h hs
  case mapSwitchComplete => exact motionOk_of_frame (exec_mapSwitchComplete_frame h) (by simp) (by simp) hs
  case encoderFilterAccept => exact act_keeps (fun _ => motionOk_finish) encoderAccept_motionOk h hs
  case pdFilterAccept => exact motionOk_of_frame (exec_pdFilterAccept_frame h) (by simp) (by simp) hs
  case continuousPlacement => exact motionOk_of_frame (exec_continuousPlacement_frame h) (by simp) (by simp) hs
  case headFault x =>
    exact act_keeps (fun _ => motionOk_finish)
      (motionOk_of_eq (portOffline_frame x s .motion (by simp)) (portOffline_idle_iff x s)) h hs
  case loadGrant => exact motionOk_of_frame (exec_loadGrant_frame h) (by simp) (by simp) hs
  case loadComplete => exact motionOk_of_frame (exec_loadComplete_frame h) (by simp) (by simp) hs
  case fire => exact motionOk_of_frame (exec_fire_frame h) (by simp) (by simp) hs
  case fireWindowEnd => exact motionOk_of_frame (exec_fireWindowEnd_frame h) (by simp) (by simp) hs
  case keepWetExpiry => exact motionOk_of_frame (exec_keepWetExpiry_frame h) (by simp) (by simp) hs
  case keepWetPulse => exact motionOk_of_frame (exec_keepWetPulse_frame h) (by simp) (by simp) hs
  case composeBegin => exact motionOk_of_frame (exec_composeBegin_frame h) (by simp) (by simp) hs
  case compositionComplete => exact motionOk_of_frame (exec_compositionComplete_frame h) (by simp) (by simp) hs
  case frameHeaderReceived => exact motionOk_of_frame (exec_frameHeaderReceived_frame h) (by simp) (by simp) hs
  case frameReceived => exact motionOk_of_frame (exec_frameReceived_frame h) (by simp) (by simp) hs
  case requestTaken =>
    exact act_keeps (fun _ => motionOk_finish) (takeRequest_keeps (P := motionOk)
      (fun u x => motionOk_of_frame (setFeed_frame u x) (by simp) (by simp)) (fun tag r _ => serve_motionOk tag r)) h hs
  case patchFrame => exact motionOk_of_frame (exec_patchFrame_frame h) (by simp) (by simp) hs
  case templateLineFrame => exact motionOk_of_frame (exec_templateLineFrame_frame h) (by simp) (by simp) hs
  case templateLineWriteComplete => exact motionOk_of_frame (exec_templateLineWriteComplete_frame h) (by simp) (by simp) hs
  case patchWriteComplete => exact motionOk_of_frame (exec_patchWriteComplete_frame h) (by simp) (by simp) hs
  case channelDrained => exact motionOk_of_frame (exec_channelDrained_frame h) (by simp) (by simp) hs
  case creditFrameSent => exact motionOk_of_frame (exec_creditFrameSent_frame h) (by simp) (by simp) hs
  case frameSent => exact motionOk_of_frame (exec_frameSent_frame h) (by simp) (by simp) hs
  case linkUp => exact motionOk_of_frame (exec_linkUp_frame h) (by simp) (by simp) hs
  case trainingTimeout => exact motionOk_of_frame (exec_trainingTimeout_frame h) (by simp) (by simp) hs
  case wordLockLoss => exact motionOk_of_frame (exec_wordLockLoss_frame h) (by simp) (by simp) hs
  case resetAssert => exact Host.Outcome.next.inj h ▸ reset_motionOk
  case resetRelease => exact Host.Outcome.next.inj h ▸ hs
  case powerOn => exact Host.Outcome.next.inj h ▸ reset_motionOk
  all_goals exact act_keeps (fun _ => motionOk_finish) (serve_motionOk _ _) h hs

/-- Settles O56: every command, the beginning of training and every tick keep the invariant. -/
theorem stepKeepsMotion : Obligations.StepKeepsMotion := fun _ _ hs h =>
  step_keeps (fun _ _ => id) exec_keeps_motionOk (fun u x => motionOk_of_frame (setFeed_frame u x) (by simp) (by simp))
    (fun _ => tick_motionOk) hs h

end Sys2Proof.Machine
end

section
/-! # The state after reset

Every invariant holds of the power-on state: its lists are empty, and each table holds one value. -/

namespace Sys2Proof.Machine

theorem reset_channel (c : DataCh) : State.reset.feed.channels.get c = .reset := Table.get_all _ _

theorem reset_credit (c : Fin 4) : State.reset.feed.credit.get c = ⟨0, 0, 0⟩ := Table.get_all _ _

theorem reset_template (i : TemplateIx) : State.reset.templates.records.get i = .reset := Table.get_all _ _

theorem reset_ring (p : Plane) : State.reset.rings.get p = .emptied := (reset_plane p).2.2

/-- A port after power-on queues no row, and none of its rows has a line (R130, R132). -/
theorem reset_rowsOk : rowsOk State.reset := by
  intro h
  rw [(reset_port h).2.2]
  have hrow : ∀ k : RowIx, HeadPort.reset.rows.get k = .reset := fun k => Table.get_all _ _
  refine ⟨⟨List.nodup_nil, fun k => ?_, fun j k hj => ?_⟩, List.Pairwise.nil, fun k hk => absurd hk List.not_mem_nil⟩
  · rw [hrow k]
    decide +revert
  · rw [hrow j] at hj
    cases hj

theorem reset_ringsOk : ringsOk State.reset :=
  fun p => ⟨fun e he => (by rw [reset_ring p] at he; cases he), fun hj => absurd rfl hj⟩

theorem reset_idleOk : idleOk State.reset := by
  intro _
  refine ⟨rfl, rfl, reset_ring, fun p => by rw [(reset_plane p).2.1], fun h => ⟨by rw [(reset_port h).2.2]; rfl, fun k => ?_⟩⟩
  rw [reset_row h k]
  exact ⟨rfl, rfl, rfl⟩

theorem reset_linkOk : linkOk State.reset := fun _ => ⟨rfl, rfl, fun c => by rw [reset_channel c]; decide, reset_credit⟩

theorem reset_creditOk : creditOk State.reset := by
  refine ⟨fun h => (nomatch h), fun c hc => ?_, Nat.zero_le _, fun i hi => (nomatch hi)⟩
  simp [Feed.earns, reset_channel, Channel.reset] at hc

theorem reset_quotasOk : quotasOk State.reset := by
  intro c
  rw [reset_channel c]
  exact ⟨by simp [State.held, State.slotsInUse, State.framesAwaiting, State.arriving, State.reset, PatchPool.reset, Feed.reset,
    TemplateStore.reset], fun h => nomatch h⟩

theorem reset_recordsOk : recordsOk State.reset := by
  refine ⟨fun p => ?_, fun h => ?_, fun e => ?_, fun e he => (nomatch he), fun e he => (nomatch he)⟩
  · rw [(reset_plane p).1]
    decide
  · rw [(reset_port h).1]
    decide
  · rw [show State.reset.geo.seams.get e = .reset from Table.get_all _ _]
    decide

theorem reset_orderOk : orderOk State.reset :=
  ⟨List.nodup_nil, fun c => by rw [reset_channel c]; exact ⟨fun h => (nomatch h), fun h => (nomatch h)⟩⟩

theorem reset_ringsFilled : ringsFilled State.reset :=
  ⟨fun p => by rw [reset_ring p]; exact ⟨rfl, Nat.zero_le _, fun e he => (nomatch he)⟩, fun f hf => (nomatch hf)⟩

theorem reset_spaceOk : spaceOk State.reset :=
  ⟨rfl, fun _ => ⟨rfl, fun i => by rw [reset_template i]; rfl⟩, fun q hq => (nomatch hq)⟩

theorem reset_fillsOk : fillsOk State.reset := by
  refine ⟨fun i => ?_, fun w hw => (nomatch hw)⟩
  rw [reset_template i]
  exact fun h => absurd rfl h

/-- Settles O5: the invariants one after another. -/
theorem resetMeetsInvariants : Obligations.ResetMeetsInvariants :=
  ⟨reset_motionOk, by decide, by decide, fun e he => (nomatch he), Nat.zero_le _, reset_rowsOk, reset_ringsOk, fun h => absurd rfl h,
    reset_idleOk, reset_linkOk, reset_creditOk, reset_quotasOk, reset_recordsOk, reset_orderOk,
    ⟨List.Pairwise.nil, fun q hq => (nomatch hq), Nat.zero_le _, rfl, fun q hq => (nomatch hq)⟩, by decide, reset_ringsFilled,
    ⟨List.Pairwise.nil, List.nodup_nil⟩, reset_spaceOk, reset_fillsOk, fun h _ => (reset_port h).2.1⟩

end Sys2Proof.Machine
end

section
/-! # The settings of the Motion Unit (R37, R51) -/

namespace Sys2Proof.Machine

/-- Settles O13: Set Motion as a configuration request, and Set Ratio in IDLE and in a job. -/
theorem motionSettings : Obligations.MotionSettings := by
  refine ⟨fun tag sense filter limit n m s hs => ?_, fun tag n m s hs => ?_⟩
  · refine configuration_result (r := .setMotion sense filter limit n m) rfl hs fun ho hj => ?_
    obtain ⟨e, r, he, hr, own⟩ := ownSetMotion_inRange s ho
    rw [if_neg (not_not.mpr hj)] at own
    refine ⟨_, exec_answered hs rfl own (.inr rfl), unchangedBut_reply _ _ _ (by simp) ((setMotion_frame s _).mono (by simp)),
      answered_of (a := .plain .done) rfl rfl, ?_⟩
    simp only [finish_motion, placeReply_motion, State.setMotion_motion, (senseOf_eq_some.mp he).2, (ratioOf_eq_some.mp hr).2]
    rfl
  · by_cases ho : m.toNat = 0 ∨ n.toNat = 0 ∨ m.toNat < n.toNat
    · simp only [if_pos ho]
      exact exec_refused (r := .setRatio n m) hs rfl (by simp only [handle, ownSetRatio, ratioOf_eq_none.mpr ho]) (.inr rfl)
    · simp only [if_neg ho]
      obtain ⟨r, hr⟩ := Option.ne_none_iff_exists'.mp (mt ratioOf_eq_none.mp ho)
      have own : handle (.setRatio n m) s = (s.setMotion (if s.job.state = .idle then { s.motion with ratio := some ⟨n.toNat, m.toNat⟩ }
          else { s.motion with pendingRatio := some ⟨n.toNat, m.toNat⟩ }), .plain .done) := by
        simp only [handle, ownSetRatio, hr, (ratioOf_eq_some.mp hr).2]
        split <;> rfl
      exact ⟨_, exec_answered hs rfl own (.inr rfl), unchangedBut_reply _ _ _ (by simp) ((setMotion_frame s _).mono (by simp)),
        answered_of (a := .plain .done) rfl rfl, by simp only [finish_motion, placeReply_motion, State.setMotion_motion]⟩

end Sys2Proof.Machine
end

section
/-! # Encoder counts (R40 to R42, R44, R45, R50)

What the decoder makes of the accepted changes, and the counts that make no boundary. -/

namespace Sys2Proof.Machine

/-! ### The decoder (R40, R41) -/

theorem forwardOf_eq_successor (e : Sense) (x : Bool × Bool) : forwardOf e x = successor e x := by
  obtain ⟨a, b⟩ := x
  cases e <;> cases a <;> cases b <;> rfl

/-- An accepted change turns the accepted level over. -/
theorem InputFilter.taken_level (x : InputFilter) : x.taken.level = (x.level ^^ x.reached) := by
  unfold InputFilter.taken
  cases hr : x.reached <;> simp

/-- The changes an encoder's inputs show at the decoder are those accepted (R40). -/
theorem changed_iff {m : Motion} (hp : m.lastPair = (m.inputA.level, m.inputB.level)) :
    (m.lastPair.1 ≠ m.taken.lastPair.1 ↔ m.inputA.reached = true) ∧ (m.lastPair.2 ≠ m.taken.lastPair.2 ↔ m.inputB.reached = true) := by
  have hxor : ∀ level reached : Bool, level ≠ (level ^^ reached) ↔ reached = true := by decide
  simp only [hp, Motion.taken, InputFilter.taken_level, hxor, and_self]

theorem decodePair_illegal {m : Motion} (hp : m.lastPair = (m.inputA.level, m.inputB.level)) (ha : m.inputA.reached = true)
    (hb : m.inputB.reached = true) : decodePair m.sense m.lastPair m.taken.lastPair = .illegal :=
  if_pos ⟨(changed_iff hp).1.mpr ha, (changed_iff hp).2.mpr hb⟩

theorem not_both_changed {m : Motion} (hp : m.lastPair = (m.inputA.level, m.inputB.level))
    (hone : m.inputA.reached ≠ m.inputB.reached) :
    ¬(m.lastPair.1 ≠ m.taken.lastPair.1 ∧ m.lastPair.2 ≠ m.taken.lastPair.2) := by
  rw [(changed_iff hp).1, (changed_iff hp).2]
  exact fun ⟨ha, hb⟩ => hone (ha.trans hb.symm)

theorem decodePair_forward {m : Motion} (hp : m.lastPair = (m.inputA.level, m.inputB.level)) (h : isForward m) :
    decodePair m.sense m.lastPair m.taken.lastPair = .forward := by
  obtain ⟨hone, hnext⟩ := h
  unfold decodePair
  rw [if_neg (not_both_changed hp hone), if_pos (by rw [forwardOf_eq_successor]; exact hnext)]

theorem decodePair_reverse {m : Motion} (hp : m.lastPair = (m.inputA.level, m.inputB.level)) (h : isReverse m) :
    decodePair m.sense m.lastPair m.taken.lastPair = .reverse := by
  obtain ⟨hone, hnext⟩ := h
  unfold decodePair
  rw [if_neg (not_both_changed hp hone), if_neg (by rw [forwardOf_eq_successor]; exact hnext)]

/-- A count is of one accepted change, so one is ready. -/
theorem acceptReady_of_one {m : Motion} (h : m.inputA.reached ≠ m.inputB.reached) : m.acceptReady = true := by
  unfold Motion.acceptReady
  cases ha : m.inputA.reached <;> cases hb : m.inputB.reached <;> simp_all

/-! ### Announcements read the link and the counters alone -/

theorem bump_feed_congr (c : CounterId) {s u : State} (hf : u.feed = s.feed) (hc : u.counters = s.counters) :
    (bump c u).feed = (bump c s).feed := by
  have hannounced : u.isAnnounced c = s.isAnnounced c := by rw [State.isAnnounced, hc]; rfl
  rw [bump_eq, bump_eq, hannounced]
  split
  · exact hf
  · exact placeNotice_feed_congr _ hf

theorem tell_congr (signs : List Sign) {s u : State} (hf : u.feed = s.feed) (hc : u.counters = s.counters) :
    (tell signs u).feed = (tell signs s).feed ∧ (tell signs u).counters = (tell signs s).counters := by
  induction signs generalizing s u with
  | nil => exact ⟨hf, hc⟩
  | cons x xs ih =>
    cases x with
    | count c => exact ih (bump_feed_congr c hf hc) (by rw [bump_counters, bump_counters, hc])
    | notice n => exact ih (placeNotice_feed_congr n hf) (by rw [placeNotice_counters, placeNotice_counters, hc])
    | reply r => exact ih (by dsimp only; rw [hf]) hc

/-- An event that announced `signs` whatever it did to the blocks beside the link and the counters. -/
theorem announced_tell {s u v : State} {signs : List Sign} (hf : u.feed = s.feed) (hc : u.counters = s.counters)
    (hvf : v.feed = (tell signs u).feed) (hvc : v.counters = (tell signs u).counters) : announced signs s (finish v) :=
  announced_of (hvf.trans (tell_congr signs hf hc).1) (hvc.trans (tell_congr signs hf hc).2)

/-! ### The event by its count -/

/-- The encoder's event with both changes accepted (R41). -/
theorem exec_encoder_illegal {s : State} (hs : awake s) (hm : motionOk s) (ha : s.motion.inputA.reached = true)
    (hb : s.motion.inputB.reached = true) :
    exec .encoderFilterAccept s = .next (finish (bump .encoderErrors (s.setMotion s.motion.taken))) := by
  have hready : s.motion.acceptReady = true := by simp [Motion.acceptReady, ha]
  have hevent : encoderAccept s = bump .encoderErrors (s.setMotion s.motion.taken) := by
    rw [encoderAccept_eq, decodePair_illegal (motionOk_iff.mp hm).pair ha hb]
  exact (act_of_can hready hs).trans (by rw [hevent])

/-- The encoder's event as a forward count (R40). -/
theorem exec_encoder_forward {s : State} (hs : awake s) (hm : motionOk s) (h : isForward s.motion) :
    exec .encoderFilterAccept s = .next (finish (forwardCount (s.setMotion s.motion.taken))) := by
  have hevent : encoderAccept s = forwardCount (s.setMotion s.motion.taken) := by
    rw [encoderAccept_eq, decodePair_forward (motionOk_iff.mp hm).pair h]
  exact (act_of_can (acceptReady_of_one h.1) hs).trans (by rw [hevent])

/-- The encoder's event as a reverse count (R40). -/
theorem exec_encoder_reverse {s : State} (hs : awake s) (hm : motionOk s) (h : isReverse s.motion) :
    exec .encoderFilterAccept s = .next (finish (reverseCount (s.setMotion s.motion.taken))) := by
  have hevent : encoderAccept s = reverseCount (s.setMotion s.motion.taken) := by
    rw [encoderAccept_eq, decodePair_reverse (motionOk_iff.mp hm).pair h]
  exact (act_of_can (acceptReady_of_one h.1) hs).trans (by rw [hevent])

/-- A count that makes no boundary leaves the Motion Unit at `m` and announces nothing. -/
theorem count_result {s : State} {m : Motion} (h : exec .encoderFilterAccept s = .next (finish (s.setMotion m))) :
    ∃ t : State, exec .encoderFilterAccept s = .next t ∧ unchangedBut [.motion, .feed] s t ∧ announced [] s t ∧ t.motion = m :=
  ⟨_, h, unchangedBut_finish (by simp) ((setMotion_frame s m).mono (by simp)), announced_of (signs := []) rfl rfl, by simp⟩

/-- Settles O32: the decoder's three verdicts, and the counts in IDLE and within a line. -/
theorem encoderCounts : Obligations.EncoderCounts := by
  refine fun s hs hm => ⟨fun ha hb => ?_, fun hf hc => ?_, fun hr hc => ?_⟩
  · refine ⟨_, exec_encoder_illegal hs hm ha hb, unchangedBut_finish (by simp) ?_, by simp, ?_⟩
    · exact (setMotion_frame s _).andThen (bump_frame _ _) (by simp) (by simp)
    · exact announced_tell (u := s.setMotion s.motion.taken) rfl rfl rfl rfl
  · by_cases hj : s.job.state = .idle
    · simp only [if_pos hj]
      exact count_result (by rw [exec_encoder_forward hs hm hf, forwardCount_idle (s := s.setMotion s.motion.taken) hj]; rfl)
    · obtain ⟨r, hratio, hbelow⟩ := hc.resolve_left hj
      have hratio : s.motion.ratio = some r := hratio
      simp only [if_neg hj, hratio, Option.elim_some]
      exact count_result (by rw [exec_encoder_forward hs hm hf, forwardCount_within (s := s.setMotion s.motion.taken) hj hratio hbelow]; rfl)
  · by_cases hj : s.job.state = .idle
    · simp only [if_pos hj]
      exact count_result (by rw [exec_encoder_reverse hs hm hr, reverseCount_idle (s := s.setMotion s.motion.taken) hj]; rfl)
    · obtain ⟨r, hratio, hbelow⟩ := hc.resolve_left hj
      have hratio : s.motion.ratio = some r := hratio
      simp only [if_neg hj, hratio, Option.elim_some]
      exact count_result (by rw [exec_encoder_reverse hs hm hr, reverseCount_within (s := s.setMotion s.motion.taken) hj hratio hbelow]; rfl)

end Sys2Proof.Machine
end

section
/-! # Retire points after release reports (R118 to R121)

The participating rows and their release serials, and what a run of release reports leaves of the retire points and rings. -/

namespace Sys2Proof.Machine

/-! ### Rows and participating rows -/

theorem upd_congr {n : Nat} {α : Type} (t : Table n α) {i : Fin n} {f g : α → α} (h : f (t.get i) = g (t.get i)) :
    t.upd i f = t.upd i g := by
  rw [Table.upd, Table.upd, h]

theorem row_updRow (s : State) (h g : Port) (k j : RowIx) (f : Row → Row) :
    (s.updRow h k f).row g j = if h = g ∧ k = j then f (s.row g j) else s.row g j := by
  simp only [State.row, State.updRow_ports, Table.get_upd]
  by_cases hg : h = g
  · simp only [hg, if_true, Table.get_upd, true_and]
  · simp only [hg, if_false, false_and]

/-- A change of rows and arbiter queues alone leaves the port states. -/
theorem participating_congr {s t : State} (hgeo : t.geo = s.geo) (hstate : ∀ h, (t.ports.get h).state = (s.ports.get h).state)
    (p : Plane) : t.participating p = s.participating p := by
  simp only [State.participating, State.rowsOf, hgeo, hstate]

/-- A participating row belongs to a head in use on the plane. -/
theorem planeOf_of_mem_participating {s : State} {p : Plane} {h : Port} {k : RowIx} (hm : (h, k) ∈ s.participating p) :
    s.planeOf h = some p := by
  obtain ⟨g, hg, hk⟩ := List.mem_flatMap.mp hm
  obtain ⟨j, -, hj⟩ := List.mem_map.mp hk
  obtain rfl : g = h := congrArg Prod.fst hj
  exact planeOf_eq_some.mpr (mem_headsOn.mp (List.mem_filter.mp hg).1)

/-- R120: with a participating row, the retire point formed is the least of their release serials. -/
theorem formRetire_spec {s : State} {p : Plane} (hne : s.participating p ≠ []) :
    (∀ r ∈ s.participating p, s.formRetire p ≤ (s.row r.1 r.2).release)
      ∧ ∃ r ∈ s.participating p, s.formRetire p = (s.row r.1 r.2).release := by
  cases hl : s.participating p with
  | nil => exact absurd hl hne
  | cons x xs =>
    have hform : s.formRetire p = leastOf (s.row x.1 x.2).release (xs.map fun r => (s.row r.1 r.2).release) := by
      simp only [State.formRetire, hl, List.map_cons]
    obtain ⟨hhead, hrest⟩ := leastOf_le (s.row x.1 x.2).release (xs.map fun r => (s.row r.1 r.2).release)
    rw [hform]
    refine ⟨fun r hr => ?_, ?_⟩
    · rcases List.mem_cons.mp hr with rfl | hr
      · exact hhead
      · exact hrest _ (List.mem_map_of_mem hr)
    · rcases leastOf_mem (s.row x.1 x.2).release (xs.map fun r => (s.row r.1 r.2).release) with h | h
      · exact ⟨x, List.mem_cons_self, h⟩
      · obtain ⟨r, hr, he⟩ := List.mem_map.mp h
        exact ⟨r, List.mem_cons_of_mem _ hr, he.symm⟩

/-! ### A release report -/

/-- A release report reaches the ports and the rings through its row's release serial and, from a participating row, the retire
point formed again. -/
theorem release_rows (h : Port) (k : RowIx) (p : Plane) (serial : Nat) (cause : ReleaseCause) (s : State) :
    (release h k p serial cause s).ports = (s.updRow h k (fun r => { r with release := max r.release serial })).ports
      ∧ (release h k p serial cause s).geo = s.geo
      ∧ (release h k p serial cause s).rings =
        if (h, k) ∈ s.participating p then
          s.rings.upd p (fun g => g.retireTo
            ((s.updRow h k (fun r => { r with release := max r.release serial })).formRetire p))
        else s.rings := by
  refine ⟨(release_frame h k p serial cause s).2.2.2.2.2.2.2.2.1, release_rows_frame h k p serial cause s .geo (by simp), ?_⟩
  obtain ⟨u, hu⟩ : ∃ u, u = s.updRow h k (fun r => { r with release := max r.release serial }) := ⟨_, rfl⟩
  obtain ⟨v, hv⟩ : ∃ v, v = (if cause = .underrun then bump (.underruns p) u else u) := ⟨_, rfl⟩
  have hports : v.ports = u.ports := by rw [hv]; split <;> simp
  have hgeo : v.geo = u.geo := by rw [hv]; split <;> simp
  have hrings : v.rings = s.rings := by rw [hv, hu]; split <;> simp
  have hparts : v.participating p = s.participating p := by
    refine participating_congr (by rw [hgeo, hu]; rfl) (fun g => ?_) p
    rw [hports, hu, State.updRow_ports, Table.get_upd]
    split <;> rfl
  have hform : v.formRetire p = u.formRetire p := by
    simp only [State.formRetire, State.participating, State.rowsOf, State.row, hports, hgeo, hrings, hu, State.updRow_rings]
  have hrelease : release h k p serial cause s = if (v.participating p).contains (h, k) then reformRetire p v else v := by
    rw [hv, hu]
    rfl
  rw [hrelease, hparts]
  by_cases hm : (h, k) ∈ s.participating p
  · rw [if_pos (List.contains_iff_mem.mpr hm), if_pos hm, reformRetire, State.updRing_rings, hrings, hform, hu]
  · rw [if_neg (fun e => hm (List.contains_iff_mem.mp e)), if_neg hm, hrings]

theorem release_participating (h : Port) (k : RowIx) (p q : Plane) (serial : Nat) (cause : ReleaseCause) (s : State) :
    (release h k p serial cause s).participating q = s.participating q := by
  obtain ⟨hports, hgeo, -⟩ := release_rows h k p serial cause s
  refine participating_congr hgeo (fun g => ?_) q
  rw [hports, State.updRow_ports, Table.get_upd]
  split <;> rfl

theorem release_row (h g : Port) (k j : RowIx) (p : Plane) (serial : Nat) (cause : ReleaseCause) (s : State) :
    (release h k p serial cause s).row g j
      = if h = g ∧ k = j then { s.row g j with release := max (s.row g j).release serial } else s.row g j := by
  rw [← row_updRow s h g k j (fun r => { r with release := max r.release serial })]
  simp only [State.row, (release_rows h k p serial cause s).1]

/-- No release report moves a frontier. -/
theorem release_frontier (h : Port) (k : RowIx) (p q : Plane) (serial : Nat) (cause : ReleaseCause) (s : State) :
    ((release h k p serial cause s).rings.get q).frontier = (s.rings.get q).frontier := by
  rw [(release_rows h k p serial cause s).2.2]
  split
  · rw [Table.get_upd]
    split <;> rfl
  · rfl

/-! ### Runs of release reports -/

/-- Of a plane's retire point `retiredTo` reads the ring, the participating rows and their release serials. -/
theorem retiredTo_congr {p : Plane} {s t u : State} (hring : u.rings.get p = t.rings.get p)
    (hparts : u.participating p = t.participating p)
    (hrelease : ∀ r ∈ t.participating p, (u.row r.1 r.2).release = (t.row r.1 r.2).release) (h : retiredTo p s t) :
    retiredTo p s u := by
  obtain ⟨hwrite, hentries, hretire⟩ := h
  refine ⟨by rw [hring, hwrite], by rw [hring, hentries], ?_⟩
  rw [hparts, hring]
  split
  · next he => simpa only [he, if_true] using hretire
  · next he =>
    simp only [he, if_false] at hretire
    obtain ⟨hle, r, hr, heq⟩ := hretire
    exact ⟨fun r hr => by rw [hrelease r hr]; exact hle r hr, r, hr, by rw [hrelease r hr]; exact heq⟩

/-- In a job the retire points are as a run of release reports leaves them. -/
theorem retiredTo_self {s : State} (hj : s.job.state ≠ .idle) (hrings : ringsOk s) (hretire : retireOk s) (p : Plane) :
    retiredTo p s s := by
  obtain ⟨habove, hbelow⟩ := hrings p
  refine ⟨rfl, (List.filter_eq_self.mpr fun e he => decide_eq_true (habove e he)).symm, ?_⟩
  split
  · rfl
  · next he => exact ⟨hbelow hj, (hretire hj p).resolve_left he⟩

/-- R120, R121: one more release report. Its row rises, so the least release serial does, and the entries retired stay retired. -/
theorem retiredTo_release {s t : State} {h : Port} {k : RowIx} {p : Plane} (hplane : t.planeOf h = some p) (serial : Nat)
    (cause : ReleaseCause) {q : Plane} (hq : retiredTo q s t) : retiredTo q s (release h k p serial cause t) := by
  obtain ⟨hports, hgeo, hrings⟩ := release_rows h k p serial cause t
  have hparts := release_participating h k p q serial cause t
  by_cases hacts : q = p ∧ (h, k) ∈ t.participating p
  · obtain ⟨rfl, hm⟩ := hacts
    rw [if_pos hm] at hrings
    obtain ⟨u, hu⟩ : ∃ u, u = t.updRow h k (fun r => { r with release := max r.release serial }) := ⟨_, rfl⟩
    have hrow : ∀ g j, (release h k q serial cause t).row g j = u.row g j := fun g j => by rw [release_row, hu, row_updRow]
    have huparts : u.participating q = t.participating q := by
      rw [← hparts]
      exact participating_congr (by rw [hgeo, hu]; rfl) (fun g => by rw [hports, hu]) q
    have hne : t.participating q ≠ [] := List.ne_nil_of_mem hm
    obtain ⟨hle, r, hr, heq⟩ := formRetire_spec (s := u) (by rw [huparts]; exact hne)
    rw [huparts] at hle hr
    obtain ⟨hwrite, hentries, hretire⟩ := hq
    rw [if_neg hne] at hretire
    have hrise : (t.rings.get q).retire ≤ u.formRetire q := by
      have hfirst := hretire.1 r hr
      have hrow : (t.row r.1 r.2).release ≤ (u.row r.1 r.2).release := by
        rw [hu, row_updRow]
        split
        · exact le_max_left _ _
        · exact le_refl _
      omega
    have hring : (release h k q serial cause t).rings.get q = (t.rings.get q).retireTo (u.formRetire q) := by
      rw [hrings, Table.get_upd_self, hu]
    refine ⟨by rw [hring]; exact hwrite, ?_, ?_⟩
    · rw [hring]
      simp only [Ring.retireTo, hentries, List.filter_filter]
      refine List.filter_congr fun e _ => ?_
      rw [Bool.and_eq_left_iff_imp]
      simp only [decide_eq_true_eq]
      omega
    · rw [hparts, if_neg hne, hring]
      refine ⟨fun r hr => ?_, r, hr, ?_⟩
      · rw [hrow]; exact hle r hr
      · rw [hrow]; exact heq
  · refine retiredTo_congr ?_ hparts (fun r hr => ?_) hq
    · rw [hrings]
      split
      · next hm => exact Table.get_upd_ne _ _ fun e => hacts ⟨e.symm, hm⟩
      · rfl
    · rw [release_row, if_neg]
      rintro ⟨rfl, rfl⟩
      have hqp : some q = some p := (planeOf_of_mem_participating hr).symm.trans hplane
      obtain rfl := Option.some.inj hqp
      exact hacts ⟨rfl, hr⟩

end Sys2Proof.Machine
end

section
/-! # The rows at a halt (R140)

What each row, each arbiter queue and each ring is once every row has given up its pending line. -/

namespace Sys2Proof.Machine

/-- A port whose row `k` gives up its line: the row becomes `f` of itself and leaves the arbiter queue. -/
def HeadPort.giveUpRow (q : HeadPort) (k : RowIx) (f : Row → Row) : HeadPort :=
  { q with rows := q.rows.upd k f, arbiter := q.arbiter.filter (fun j => j != k) }

/-- The part of `portOk` that each row of a port meets on its own (R130, R132). -/
def HeadPort.linesOk (q : HeadPort) : Prop :=
  ∀ k : RowIx, (k ∈ q.arbiter ↔ (q.rows.get k).load = .queued)
    ∧ ((q.rows.get k).line.isSome ↔ (q.rows.get k).load ≠ .empty)
    ∧ ((q.rows.get k).due.isSome → (q.rows.get k).line.isSome)

/-- A row that ends without a pending line (R130). -/
def Row.isEmpty (r : Row) : Prop := r.load = .empty ∧ r.line = none ∧ r.due = none

theorem Row.emptied_isEmpty (r : Row) : r.emptied.isEmpty := ⟨rfl, rfl, rfl⟩

theorem Row.halted_isEmpty (r : Row) : r.halted.isEmpty := by
  unfold Row.halted
  split <;> exact ⟨rfl, rfl, rfl⟩

/-- A row with no line is as a halt leaves it (R140). -/
theorem Row.halted_of_no_line {r : Row} (hline : r.line = none) (hload : r.line.isSome ↔ r.load ≠ .empty)
    (hdue : r.due.isSome → r.line.isSome) : r.load = .empty ∧ r.halted = r := by
  have hempty : r.load = .empty := by simpa [hline] using hload
  have hnone : r.due = none := by simpa [hline] using hdue
  refine ⟨hempty, ?_⟩
  obtain ⟨load, line, due, window, loadEnd, data, inked, latched, release, joined⟩ := r
  subst hempty hline hnone
  rfl

theorem HeadPort.linesOk_giveUpRow {q : HeadPort} (h : q.linesOk) (k : RowIx) {f : Row → Row} (hf : ∀ r, (f r).isEmpty) :
    (q.giveUpRow k f).linesOk := by
  intro j
  by_cases hj : j = k
  · subst hj
    obtain ⟨hload, hline, hdue⟩ := hf (q.rows.get j)
    simp [HeadPort.giveUpRow, hload, hline, hdue]
  · have hrow : (q.giveUpRow k f).rows.get j = q.rows.get j := Table.get_upd_ne _ _ (Ne.symm hj)
    rw [hrow]
    simpa [HeadPort.giveUpRow, hj] using h j

/-! ### One row -/

theorem dropLineOf_ports (h : Port) (k : RowIx) (s : State) :
    (dropLineOf h k s).ports = s.ports.upd h (fun q => q.giveUpRow k Row.emptied) := by
  unfold dropLineOf
  rw [State.updRow, updPort_updPort]
  rfl

theorem dropLineOf_row_release (h g : Port) (k j : RowIx) (s : State) :
    ((dropLineOf h k s).row g j).release = (s.row g j).release := by
  have hrow : (dropLineOf h k s).row g j = (s.updRow h k Row.emptied).row g j := by
    simp only [State.row, dropLineOf, State.updPort_ports, Table.get_upd]
    split <;> rfl
  rw [hrow, row_updRow]
  split <;> rfl

/-- A row that gives up its line with a report: its release serial rises to the line's (R128, R134, R140). -/
theorem giveUp_ports (h : Port) (k : RowIx) (p : Plane) (cause : ReleaseCause) (s : State) :
    (giveUp h k p cause s).ports = s.ports.upd h (fun q => q.giveUpRow k Row.abandoned) := by
  have hrow : s.row h k = (s.ports.get h).rows.get k := rfl
  unfold giveUp
  split
  · next l hl =>
    rw [(release_rows h k p l.serial cause _).1, State.updRow_ports, dropLineOf_ports]
    refine Table.ext_get fun g => ?_
    simp only [Table.get_upd]
    by_cases hg : h = g
    · subst hg
      simp only [if_true, HeadPort.giveUpRow]
      refine congrArg (fun rows => ({ s.ports.get h with rows := rows, arbiter := _ } : HeadPort)) (Table.ext_get fun j => ?_)
      simp only [Table.get_upd]
      by_cases hj : k = j
      · subst hj
        simp only [if_true, Row.emptied, Row.abandoned, ← hrow, hl]
      · simp only [hj, if_false]
    · simp only [hg, if_false]
  · next hl =>
    rw [dropLineOf_ports]
    refine upd_congr _ ?_
    refine congrArg (fun rows => ({ s.ports.get h with rows := rows, arbiter := _ } : HeadPort)) (upd_congr _ ?_)
    simp only [← hrow, Row.emptied, Row.abandoned, hl]

/-- What the rows of a head do at a halt: with the head in use, as R140 has it; otherwise they drop their lines. -/
def haltEffect (g : Geometry) (h : Port) : Row → Row := if g.inUse h then Row.halted else Row.emptied

theorem haltEffect_isEmpty (g : Geometry) (h : Port) (r : Row) : (haltEffect g h r).isEmpty := by
  unfold haltEffect
  split
  · exact r.halted_isEmpty
  · exact r.emptied_isEmpty

/-- R140, row by row. -/
theorem haltRow_ports {h : Port} {s : State} (hok : (s.ports.get h).linesOk) (k : RowIx) :
    (haltRow h s k).ports = s.ports.upd h (fun q => q.giveUpRow k (haltEffect s.geo h)) := by
  have hrow : s.row h k = (s.ports.get h).rows.get k := rfl
  unfold haltRow haltEffect
  cases hp : s.planeOf h with
  | none =>
    rw [planeOf_eq_none.mp hp]
    exact dropLineOf_ports h k s
  | some p =>
    have huse : s.geo.inUse h = true := Bool.not_eq_false _ |>.mp (by rw [← planeOf_eq_none, hp]; exact Option.some_ne_none p)
    rw [huse]
    simp only [if_true]
    by_cases hline : (s.row h k).line.isNone
    · obtain ⟨hqueued, hload, hdue⟩ := hok k
      rw [← hrow] at hload hdue hqueued
      obtain ⟨hempty, hself⟩ := Row.halted_of_no_line (Option.isNone_iff_eq_none.mp hline) hload hdue
      have hout : k ∉ (s.ports.get h).arbiter := by rw [hqueued, hempty]; exact nofun
      rw [if_pos hline]
      refine Table.ext_get fun g => ?_
      rw [Table.get_upd]
      split
      · next hg =>
        subst hg
        have hrows : (s.ports.get h).rows.upd k Row.halted = (s.ports.get h).rows := by rw [Table.upd, ← hrow, hself]; exact Table.put_get_self _ _
        have harb : (s.ports.get h).arbiter.filter (fun j => j != k) = (s.ports.get h).arbiter :=
          List.filter_eq_self.mpr fun j hj => by simpa using fun e : j = k => hout (e ▸ hj)
        rw [HeadPort.giveUpRow, hrows, harb]
      · rfl
    · rw [if_neg hline]
      split
      · next hqueued =>
        rw [dropLineOf_ports]
        refine upd_congr _ (congrArg (fun rows => ({ s.ports.get h with rows := rows, arbiter := _ } : HeadPort)) (upd_congr _ ?_))
        rw [← hrow, Row.halted, if_pos hqueued]
        rfl
      · next hqueued =>
        rw [giveUp_ports]
        refine upd_congr _ (congrArg (fun rows => ({ s.ports.get h with rows := rows, arbiter := _ } : HeadPort)) (upd_congr _ ?_))
        rw [← hrow, Row.halted, if_neg hqueued]

/-! ### Every row -/

/-- The rows of one port at a halt, in row order. -/
theorem haltPort_ports {h : Port} (ks : List RowIx) {s : State} (hok : (s.ports.get h).linesOk) :
    (ks.foldl (haltRow h) s).ports
      = s.ports.upd h (fun q => ks.foldl (fun q k => q.giveUpRow k (haltEffect s.geo h)) q) := by
  induction ks generalizing s with
  | nil => exact (Table.put_get_self _ _).symm
  | cons k ks ih =>
    have hrow := haltRow_ports hok k
    have hgeo : (haltRow h s k).geo = s.geo := haltRow_frame h s k .geo (by simp)
    have hport : (haltRow h s k).ports.get h = (s.ports.get h).giveUpRow k (haltEffect s.geo h) := by
      rw [hrow, Table.get_upd_self]
    rw [List.foldl_cons, ih (by rw [hport]; exact HeadPort.linesOk_giveUpRow hok k (haltEffect_isEmpty s.geo h)), hgeo, hrow]
    refine Table.ext_get fun g => ?_
    simp only [Table.get_upd]
    split <;> rfl

/-- A port all four rows of which have given up their lines. -/
theorem giveUpRow_allRows (q : HeadPort) (f : Row → Row) :
    allRows.foldl (fun q k => q.giveUpRow k f) q = { q with rows := .ofFun (fun k => f (q.rows.get k)), arbiter := [] } := by
  have hrows : (((q.rows.upd 0 f).upd 1 f).upd 2 f).upd 3 f = .ofFun (fun k => f (q.rows.get k)) := by
    refine Table.ext_get fun k => ?_
    rw [Table.get_ofFun]
    fin_cases k <;> simp [Table.get_upd]
  have harb : (((q.arbiter.filter (fun j => j != 0)).filter (fun j => j != 1)).filter (fun j => j != 2)).filter (fun j => j != 3) = [] := by
    simp only [List.filter_filter, List.filter_eq_nil_iff]
    rintro j -
    revert j
    decide
  simp only [allRows, List.foldl_cons, List.foldl_nil, HeadPort.giveUpRow, hrows, harb]

/-- R140: the ports once every row has given up its line. -/
theorem haltRows_ports {s : State} (hok : ∀ h, (s.ports.get h).linesOk) (h : Port) :
    (haltRows s).ports.get h = { s.ports.get h with
      rows := .ofFun (fun k => haltEffect s.geo h ((s.ports.get h).rows.get k)), arbiter := [] } := by
  have hfold : ∀ (hs : List Port) (u : State), hs.Nodup → (∀ g ∈ hs, (u.ports.get g).linesOk) →
      (hs.foldl (fun s h => allRows.foldl (haltRow h) s) u).ports.get h =
        if h ∈ hs then { u.ports.get h with
          rows := .ofFun (fun k => haltEffect u.geo h ((u.ports.get h).rows.get k)), arbiter := [] }
        else u.ports.get h := by
    intro hs
    induction hs with
    | nil => exact fun u _ _ => rfl
    | cons g gs ih =>
      intro u hnodup hgs
      obtain ⟨hg, hrest⟩ := List.nodup_cons.mp hnodup
      have hgeo : (allRows.foldl (haltRow g) u).geo = u.geo := unchangedBut_foldl (haltRow_frame g) allRows u .geo (by simp)
      have hports : ∀ x, (allRows.foldl (haltRow g) u).ports.get x = if g = x then { u.ports.get x with
          rows := .ofFun (fun k => haltEffect u.geo g ((u.ports.get x).rows.get k)), arbiter := [] } else u.ports.get x := by
        intro x
        rw [haltPort_ports allRows (hgs g List.mem_cons_self), Table.get_upd]
        simp only [giveUpRow_allRows]
      rw [List.foldl_cons, ih _ hrest fun x hx => ?_]
      · rw [hports h, hgeo]
        by_cases hh : g = h
        · subst hh
          simp [hg]
        · simp [hh, Ne.symm hh]
      · rw [hports x, if_neg (fun e : g = x => hg (e ▸ hx))]
        exact hgs x (List.mem_cons_of_mem _ hx)
  rw [haltRows, hfold allPorts s (by decide) (fun g _ => hok g), if_pos (mem_allPorts h)]

/-! ### The rings -/

/-- What each member of a list keeps, all of them in turn keep. -/
theorem foldl_keeps {α : Type} {P : State → Prop} {f : State → α → State} (h : ∀ s a, P s → P (f s a)) (l : List α) {s : State}
    (hs : P s) : P (l.foldl f s) := by
  induction l generalizing s with
  | nil => exact hs
  | cons a l ih => exact ih (h s a hs)

/-- A dropped line touches no ring, no participating row and no release serial. -/
theorem retiredTo_dropLineOf {p : Plane} {s t : State} (h : Port) (k : RowIx) (ht : retiredTo p s t) :
    retiredTo p s (dropLineOf h k t) := by
  have hframe := dropLineOf_frame h k t
  refine retiredTo_congr (by rw [show (dropLineOf h k t).rings = t.rings from hframe .rings (by simp)])
    (participating_congr (hframe .geo (by simp)) (fun g => ?_) p) (fun r _ => dropLineOf_row_release h r.1 k r.2 t) ht
  rw [dropLineOf_ports, Table.get_upd]
  split <;> rfl

theorem retiredTo_haltRow {p : Plane} {s : State} (h : Port) (t : State) (k : RowIx) (ht : retiredTo p s t) :
    retiredTo p s (haltRow h t k) := by
  have hdrop := retiredTo_dropLineOf h k ht
  unfold haltRow
  split
  · next q hq =>
    dsimp only
    split
    · exact ht
    · split
      · exact hdrop
      · unfold giveUp
        split
        · refine retiredTo_release ?_ _ _ hdrop
          rw [← hq, State.planeOf, State.planeOf, show (dropLineOf h k t).geo = t.geo from dropLineOf_frame h k t .geo (by simp)]
        · exact hdrop
  · exact hdrop

theorem haltRow_frontier (h : Port) (t : State) (k : RowIx) (p : Plane) :
    ((haltRow h t k).rings.get p).frontier = (t.rings.get p).frontier := by
  have hdrop : (dropLineOf h k t).rings = t.rings := dropLineOf_frame h k t .rings (by simp)
  unfold haltRow
  split
  · dsimp only
    split
    · rfl
    · split
      · rw [hdrop]
      · unfold giveUp
        split
        · rw [release_frontier, hdrop]
        · rw [hdrop]
  · rw [hdrop]

/-- R118, R140: a halt moves no frontier. -/
theorem haltRows_frontier (t : State) (p : Plane) : ((haltRows t).rings.get p).frontier = (t.rings.get p).frontier := by
  unfold haltRows
  refine foldl_keeps (P := fun u => (u.rings.get p).frontier = (t.rings.get p).frontier) (fun u h hu => ?_) allPorts rfl
  exact foldl_keeps (P := fun u => (u.rings.get p).frontier = (t.rings.get p).frontier)
    (fun v k hv => (haltRow_frontier h v k p).trans hv) allRows hu

/-- R119 to R121, R140: a halt leaves each retire point and ring as its ABANDONED releases do. -/
theorem retiredTo_haltRows {s t : State} {p : Plane} (h : retiredTo p s t) : retiredTo p s (haltRows t) := by
  unfold haltRows
  exact foldl_keeps (fun u x hu => foldl_keeps (retiredTo_haltRow x) allRows hu) allPorts h

end Sys2Proof.Machine
end

section
/-! # Re-travel boundaries and the REVERSE halt (R44, R45, R47, R48, R52, R53, R156) -/

namespace Sys2Proof.Machine

/-! ### The entry to HALTED (R140, R157) -/

theorem linesOk_of_rowsOk {s : State} (h : rowsOk s) (x : Port) : (s.ports.get x).linesOk := (h x).1.2.1

theorem enterHalted_ports {s : State} (hok : ∀ h, (s.ports.get h).linesOk) (h : Port) :
    (enterHalted s).ports.get h = { s.ports.get h with
      rows := .ofFun (fun k => haltEffect s.geo h ((s.ports.get h).rows.get k)), arbiter := [] } :=
  haltRows_ports (s := stopComposer s) hok h

/-- A row of a head in use at the entry to HALTED (R140). -/
theorem enterHalted_row {s : State} (hok : ∀ h, (s.ports.get h).linesOk) {h : Port} (huse : s.geo.inUse h = true) (k : RowIx) :
    (enterHalted s).row h k = (s.row h k).halted := by
  rw [State.row, enterHalted_ports hok h, Table.get_ofFun, haltEffect, if_pos huse]
  rfl

theorem enterHalted_composer (s : State) : (enterHalted s).composer = { s.composer with flight := none } :=
  haltRows_frame (stopComposer s) .composer (by simp)

theorem enterHalted_frontier (s : State) (p : Plane) : ((enterHalted s).rings.get p).frontier = (s.rings.get p).frontier :=
  haltRows_frontier (stopComposer s) p

theorem retiredTo_enterHalted {s t : State} {p : Plane} (h : retiredTo p s t) : retiredTo p s (enterHalted t) :=
  retiredTo_haltRows (retiredTo_congr (t := t) rfl rfl (fun _ _ => rfl) h)

/-! ### Boundaries at the Motion Unit -/

/-- R52: a pending ratio applied, in the words of the statements. -/
theorem applyPending_eq_rescaled {m : Motion} {old : Ratio} (hr : m.ratio = some old) (a : Nat) :
    ({ m with acc := a } : Motion).applyPending = m.rescaled old a := by
  unfold Motion.applyPending Motion.rescaled
  cases hp : m.pendingRatio <;> simp [hr]

/-- A forward boundary at or below H is re-travel (R47). -/
theorem forwardBoundary_reTravel {s : State} (h : s.motion.p < s.motion.h) :
    forwardBoundary s = bump .reTravelBoundaries (s.setMotion (s.motion.reTravel (s.motion.p + 1) s.now)) :=
  if_neg (by omega)

@[simp] theorem applyPending_p (m : Motion) : m.applyPending.p = m.p := by unfold Motion.applyPending; split <;> rfl
@[simp] theorem applyPending_h (m : Motion) : m.applyPending.h = m.h := by unfold Motion.applyPending; split <;> rfl
@[simp] theorem applyPending_reverseLimit (m : Motion) : m.applyPending.reverseLimit = m.reverseLimit := by
  unfold Motion.applyPending; split <;> rfl

/-- A reverse boundary is re-travel, and halts a job in RUNNING or STOPPING that it leaves beyond the reverse limit (R47, R48). -/
theorem reverseBoundary_eq (s : State) :
    reverseBoundary s =
      if (s.job.state = .running ∨ s.job.state = .stopping) ∧ (s.motion.reverseLimit : Int) < s.motion.h - (s.motion.p - 1) then
        raiseHalt .reverse .reverse (bump .reTravelBoundaries (s.setMotion (s.motion.reTravel (s.motion.p - 1) s.now)))
      else bump .reTravelBoundaries (s.setMotion (s.motion.reTravel (s.motion.p - 1) s.now)) := by
  unfold reverseBoundary
  simp [Motion.reTravel]

/-- The state a re-travel boundary leaves, with the Motion Unit at `m`. -/
theorem reTravel_result {s : State} {m : Motion}
    (h : exec .encoderFilterAccept s = .next (finish (bump .reTravelBoundaries (s.setMotion m)))) :
    ∃ t : State, exec .encoderFilterAccept s = .next t ∧ unchangedBut [.motion, .counters, .feed] s t ∧ t.motion = m
      ∧ announced [.count .reTravelBoundaries] s t :=
  ⟨_, h, unchangedBut_finish (by simp) ((setMotion_frame s m).andThen (bump_frame _ _) (by simp) (by simp)), by simp,
    announced_tell (u := s.setMotion m) rfl rfl rfl rfl⟩

/-- R156: the state a REVERSE halt leaves, with the Motion Unit at `m`. -/
theorem reverseHalt_result {s : State} {m : Motion} (hj : s.job.state ≠ .idle) (hrows : rowsOk s)
    (h : exec .encoderFilterAccept s = .next (finish (enterHalted (placeNotice (.jobState .halted .reverse)
      ((bump .reTravelBoundaries (s.setMotion m)).setJob ⟨.halted, .reverse⟩))))) :
    ∃ t : State, exec .encoderFilterAccept s = .next t
      ∧ unchangedBut [.motion, .job, .composer, .rings, .ports, .counters, .feed] s t ∧ t.motion = m
      ∧ t.job = ⟨.halted, .reverse⟩ ∧ t.composer = { s.composer with flight := none }
      ∧ announced [.count .reTravelBoundaries, .notice (.jobState .halted .reverse)] s t
      ∧ (∀ h : Port, t.ports.get h = { s.ports.get h with rows := (t.ports.get h).rows, arbiter := [] })
      ∧ (∀ (h : Port) (k : RowIx), s.geo.inUse h = true → t.row h k = (s.row h k).halted)
      ∧ ∀ p : Plane, (t.rings.get p).frontier = (s.rings.get p).frontier ∧ (ringsOk s → retireOk s → retiredTo p s t) := by
  obtain ⟨u, hu⟩ : ∃ u, u = bump .reTravelBoundaries (s.setMotion m) := ⟨_, rfl⟩
  obtain ⟨w, hw⟩ : ∃ w, w = placeNotice (.jobState .halted .reverse) (u.setJob ⟨.halted, .reverse⟩) := ⟨_, rfl⟩
  rw [← hu, ← hw] at h
  have hmove : unchangedBut [.motion, .counters, .feed] s u := by
    rw [hu]
    exact (setMotion_frame s m).andThen (bump_frame _ _) (by simp) (by simp)
  have hnote : unchangedBut [.job, .feed] u w := by
    rw [hw]
    exact (setJob_frame u _).andThen (placeNotice_frame _ _) (by simp) (by simp)
  have hwhole : unchangedBut [.motion, .job, .counters, .feed] s w := hmove.andThen hnote (by simp) (by simp)
  have hhalt := enterHalted_frame w
  have hgeo : w.geo = s.geo := hwhole .geo (by simp)
  have hports : w.ports = s.ports := hwhole .ports (by simp)
  have hrings : w.rings = s.rings := hwhole .rings (by simp)
  have hok : ∀ x, (w.ports.get x).linesOk := fun x => hports ▸ linesOk_of_rowsOk hrows x
  have hfeed : w.feed = (tell [.notice (.jobState .halted .reverse)] u).feed := by rw [hw]; exact placeNotice_feed_congr _ rfl
  refine ⟨_, h, unchangedBut_finish (by simp) (hwhole.andThen hhalt (by simp) (by simp)), ?_, ?_, ?_, ?_, fun x => ?_, fun x k hx => ?_,
    fun p => ⟨?_, fun hring hretire => ?_⟩⟩
  · rw [finish_motion, show (enterHalted w).motion = w.motion from hhalt .motion (by simp), hw, hu]
    simp
  · rw [finish_job, show (enterHalted w).job = w.job from hhalt .job (by simp), hw]
    simp
  · rw [finish_composer, enterHalted_composer, show w.composer = s.composer from hwhole .composer (by simp)]
  · refine announced_tell (u := s.setMotion m) rfl rfl ?_ ?_
    · rw [show (enterHalted w).feed = w.feed from hhalt .feed (by simp), hfeed, hu]
      rfl
    · rw [show (enterHalted w).counters = w.counters from hhalt .counters (by simp), hw, hu]
      simp [tell]
  · rw [finish_ports, enterHalted_ports hok x, hports]
  · rw [State.row, finish_ports]
    exact (enterHalted_row hok (by rw [hgeo]; exact hx) k).trans (by rw [State.row, State.row, hports])
  · rw [finish_rings, enterHalted_frontier, hrings]
  · have hw' : retiredTo p s w := retiredTo_congr (t := s) (by rw [hrings])
      (participating_congr hgeo (fun g => by rw [hports]) p) (fun r _ => by rw [State.row, State.row, hports])
      (retiredTo_self hj hring hretire p)
    have hfinish : ∀ v : State, retiredTo p s v → retiredTo p s (finish v) := fun v => retiredTo_congr (by rw [finish_rings])
      (participating_congr (finish_geo v) (fun g => by rw [finish_ports]) p) (fun r _ => by rw [State.row, State.row, finish_ports])
    exact hfinish _ (retiredTo_enterHalted hw')

/-- The encoder's event as a count that makes a forward boundary (R44). -/
theorem exec_forward_boundary {s : State} {r : Ratio} (hs : awake s) (hm : motionOk s) (hf : isForward s.motion)
    (hj : s.job.state ≠ .idle) (hr : s.motion.ratio = some r) (hfull : r.m ≤ s.motion.acc + r.n) :
    exec .encoderFilterAccept s = .next (finish (forwardBoundary (s.setMotion
      { s.motion.taken with rawCount := s.motion.rawCount + 1, acc := s.motion.acc + r.n - r.m }))) := by
  rw [exec_encoder_forward hs hm hf, forwardCount_boundary (s := s.setMotion s.motion.taken) (r := r) hj hr hfull]
  rfl

/-- The encoder's event as a count that makes a reverse boundary (R45). -/
theorem exec_reverse_boundary {s : State} {r : Ratio} (hs : awake s) (hm : motionOk s) (hrev : isReverse s.motion)
    (hj : s.job.state ≠ .idle) (hr : s.motion.ratio = some r) (hempty : s.motion.acc < r.n) :
    exec .encoderFilterAccept s = .next (finish (reverseBoundary (s.setMotion
      { s.motion.taken with rawCount := s.motion.rawCount - 1, acc := s.motion.acc + r.m - r.n }))) := by
  rw [exec_encoder_reverse hs hm hrev, reverseCount_boundary (s := s.setMotion s.motion.taken) (r := r) hj hr hempty]
  rfl

/-- Settles O33: the boundary at or below H, and the reverse boundary within and beyond the limit. -/
theorem reTravelBoundaries : Obligations.ReTravelBoundaries := by
  refine fun s r hs hm hj hr => ⟨fun hf hfull hback => ?_, fun hrev hempty => ?_⟩
  · have hexec := exec_forward_boundary hs hm hf hj hr hfull
    rw [forwardBoundary_reTravel (by exact hback)] at hexec
    have hmoved := applyPending_eq_rescaled (m := { s.motion.taken with
      rawCount := s.motion.rawCount + 1, p := s.motion.p + 1, lastBoundary := some ⟨s.now, false⟩ }) hr (s.motion.acc + r.n - r.m)
    obtain ⟨t, ht, hkept, hmotion, hsigns⟩ := reTravel_result hexec
    exact ⟨t, ht, hkept, hsigns, hmotion.trans hmoved⟩
  · have hexec := exec_reverse_boundary hs hm hrev hj hr hempty
    rw [reverseBoundary_eq] at hexec
    have hmoved := applyPending_eq_rescaled (m := { s.motion.taken with
      rawCount := s.motion.rawCount - 1, p := s.motion.p - 1, lastBoundary := some ⟨s.now, false⟩ }) hr (s.motion.acc + r.m - r.n)
    refine ⟨fun hstays => ?_, fun hnot hbeyond hrows => ?_⟩
    · rw [if_neg] at hexec
      · obtain ⟨t, ht, hkept, hmotion, hsigns⟩ := reTravel_result hexec
        exact ⟨t, ht, hkept, hmotion.trans hmoved, hsigns⟩
      · rintro ⟨hactive, hbeyond⟩
        have hbeyond : (s.motion.reverseLimit : Int) < s.motion.h - (s.motion.p - 1) := hbeyond
        have hactive : s.job.state = .running ∨ s.job.state = .stopping := hactive
        rcases hstays with hhalted | hwithin
        · simp [hhalted] at hactive
        · omega
    · have hactive : s.job.state = .running ∨ s.job.state = .stopping := by
        cases hjob : s.job.state <;> simp_all
      rw [if_pos (by exact ⟨hactive, hbeyond⟩), raiseHalt_of_active _ _ (by rw [bump_job]; exact hactive)] at hexec
      obtain ⟨t, ht, hkept, hmotion, hrest⟩ := reverseHalt_result hj hrows hexec
      exact ⟨t, ht, hkept, hmotion.trans hmoved, hrest⟩

end Sys2Proof.Machine
end

section
/-! # A print tick at the Motion Unit, the Placement Unit and the Composer (R46, R53, R54, R71 to R73, R95, R108) -/

namespace Sys2Proof.Machine

/-! ### What the rows announce at a print tick -/

/-- The counters that the rows count at a print tick (R134, R138). -/
def CounterId.ofRows : CounterId → Bool
  | .underruns _ => true
  | .dropFires _ => true
  | .forcedFires _ => true
  | .skippedLines _ => true
  | _ => false

/-- An event that leaves a counter and its flag alone and of the notice queue at most adds to its end. -/
structure AddsNotices (c : CounterId) (s t : State) : Prop where
  count : t.countOf c = s.countOf c
  flag : t.isAnnounced c = s.isAnnounced c
  notices : s.feed.notices <+: t.feed.notices
  lost : s.feed.noticesLost = true → t.feed.noticesLost = true

theorem AddsNotices.refl (c : CounterId) (s : State) : AddsNotices c s s := ⟨rfl, rfl, List.prefix_refl _, id⟩

theorem AddsNotices.trans {c : CounterId} {s t u : State} (h1 : AddsNotices c s t) (h2 : AddsNotices c t u) : AddsNotices c s u where
  count := h2.count.trans h1.count
  flag := h2.flag.trans h1.flag
  notices := h1.notices.trans h2.notices
  lost := h2.lost ∘ h1.lost

/-- An event that leaves the counters and the link alone. -/
theorem AddsNotices.ofFrame {c : CounterId} {bs : List Block} {s t : State} (h : unchangedBut bs s t) (hc : .counters ∉ bs)
    (hf : .feed ∉ bs) : AddsNotices c s t := by
  have hcounters : t.counters = s.counters := h .counters hc
  have hfeed : t.feed = s.feed := h .feed hf
  refine ⟨?_, ?_, ?_, ?_⟩
  · rw [State.countOf, hcounters]; rfl
  · rw [State.isAnnounced, hcounters]; rfl
  · rw [hfeed]
  · rw [hfeed]; exact id

theorem AddsNotices.ofNotice (c : CounterId) (n : Notice) (s : State) : AddsNotices c s (placeNotice n s) := by
  refine ⟨by rw [State.countOf, placeNotice_counters]; rfl, by rw [State.isAnnounced, placeNotice_counters]; rfl, ?_, ?_⟩
  · rw [placeNotice_eq]
    simp only [State.setFeed_feed]
    split_ifs <;> simp
  · rw [placeNotice_eq]
    simp only [State.setFeed_feed]
    split_ifs <;> simp

/-- Counting another event. -/
theorem AddsNotices.ofBump {c d : CounterId} (h : c ≠ d) (s : State) : AddsNotices c s (bump d s) := by
  have hnotices : s.feed.notices <+: (bump d s).feed.notices
      ∧ (s.feed.noticesLost = true → (bump d s).feed.noticesLost = true) := by
    rw [bump_eq]
    split
    · exact ⟨List.prefix_refl _, id⟩
    · have hplaced := AddsNotices.ofNotice c (.firstEvent d) (s.setCounters (s.counters.increment d))
      exact ⟨hplaced.notices, hplaced.lost⟩
  exact ⟨by rw [countOf_bump, if_neg h], by rw [isAnnounced_bump, if_neg h], hnotices.1, hnotices.2⟩

theorem AddsNotices.ofIte {c : CounterId} {b : Prop} [Decidable b] {s t u : State} (ht : AddsNotices c s t) (hu : AddsNotices c s u) :
    AddsNotices c s (if b then t else u) := by
  split
  · exact ht
  · exact hu

section

variable {c : CounterId} (hc : c.ofRows = false)

include hc

theorem fireLine_adds (h : Port) (k : RowIx) (s : State) : AddsNotices c s (fireLine h k s) := by
  refine (AddsNotices.ofFrame (updRow_frame s h k _) (by simp) (by simp)).trans (.ofIte ?_ (.refl c _))
  exact (AddsNotices.ofFrame (updPort_frame _ h _) (by simp) (by simp)).trans (.ofBump (by rintro rfl; cases hc) _)

theorem release_adds (h : Port) (k : RowIx) (p : Plane) (serial : Nat) (cause : ReleaseCause) (s : State) :
    AddsNotices c s (release h k p serial cause s) := by
  by_cases hu : cause = .underrun
  · subst hu
    refine (AddsNotices.ofFrame (updRow_frame s h k _) (by simp) (by simp)).trans
      ((AddsNotices.ofBump (d := .underruns p) (by rintro rfl; cases hc) _).trans (.ofIte ?_ (.refl c _)))
    exact .ofFrame (reformRetire_frame p _) (by simp) (by simp)
  · exact .ofFrame (release_uncounted_frame h k p serial hu s) (by simp) (by simp)

theorem settlePrevious_adds (h : Port) (k : RowIx) (p : Plane) (s : State) : AddsNotices c s (settlePrevious h k p s) := by
  refine .ofIte (.ofIte ?_ ?_) (.refl c s)
  · exact (fireLine_adds hc h k s).trans (.ofBump (by rintro rfl; cases hc) _)
  · exact (AddsNotices.ofFrame (giveUp_frame h k p (by simp) s) (by simp) (by simp)).trans (.ofBump (by rintro rfl; cases hc) _)

theorem takeDue_adds (h : Port) (k : RowIx) (p : Plane) (s : State) : AddsNotices c s (takeDue h k p s) := by
  unfold takeDue
  split
  · exact .refl c s
  · next serial _ =>
    refine (AddsNotices.ofFrame (raiseFrontier_frame p serial s) (by simp) (by simp)).trans (.ofIte ?_ ?_)
    · exact .ofFrame (updRow_frame _ h k _) (by simp) (by simp)
    · split
      · exact .ofFrame (queueLoad_frame h k _ _ _) (by simp) (by simp)
      · exact release_adds hc h k p serial _ _

theorem rowTick_adds (h : Port) (s : State) (k : RowIx) : AddsNotices c s (rowTick h s k) := by
  unfold rowTick
  split
  · exact .refl c s
  · next p _ =>
    refine .ofIte ?_ ((settlePrevious_adds hc h k p s).trans (takeDue_adds hc h k p _))
    unfold haltedTick
    split
    · exact .refl c s
    · next serial _ =>
      exact (AddsNotices.ofFrame (raiseFrontier_frame p serial s) (by simp) (by simp)).trans (release_adds hc h k p serial _ _)

/-- A print tick at the rows leaves the counters of the other units alone and adds its notices behind theirs. -/
theorem rowsTick_adds (s : State) : AddsNotices c s (rowsTick s) := by
  unfold rowsTick
  refine foldl_keeps (P := AddsNotices c s) (fun u h hu => hu.trans (.ofIte ?_ (.refl c u))) allPorts (.refl c s)
  exact foldl_keeps (P := AddsNotices c u) (fun v k hv => hv.trans (rowTick_adds hc h v k)) _ (.refl c u)

end

/-! ### A retirement -/

/-- R95: the entry whose last copy has retired leaves the Page Queue, and the Composer keeps the rest. -/
theorem dropRetired_eq (c : Composer) (copy : Nat) :
    c.dropRetired copy = { c with
      pages := if (∃ e ∈ c.pages.head?, e.first + e.copies = copy + 1) then c.pages.drop 1 else c.pages } := by
  obtain ⟨pages, nextSequence, nextSerial, place, line, marks, flight⟩ := c
  cases pages with
  | nil => simp [Composer.dropRetired]
  | cons e rest => by_cases he : e.first + e.copies = copy + 1 <;> simp [Composer.dropRetired, he]

/-- R108: a Composer that has not passed the copy skips it and its patches. -/
theorem copyRetired_of_le {s : State} {copy : Nat} (h : s.composer.copy ≤ copy) :
    (copyRetired copy s).composer = Composer.slide { s.composer.dropRetired copy with copy := copy + 1, line := 0, flight := none }
      ∧ (copyRetired copy s).pool.index = s.pool.index.filter (fun e => decide (copy < e.copy)) := by
  have hskip : copyRetired copy s = skipCopies copy (s.setComposer (s.composer.dropRetired copy)) := rfl
  rw [hskip, skipCopies, if_pos (by rw [State.setComposer_composer, dropRetired_eq]; exact h)]
  exact ⟨rfl, rfl⟩

/-- A Composer past the copy loses at most its page entry. -/
theorem copyRetired_of_lt {s : State} {copy : Nat} (h : copy < s.composer.copy) :
    copyRetired copy s = s.setComposer (s.composer.dropRetired copy) := by
  have hskip : copyRetired copy s = skipCopies copy (s.setComposer (s.composer.dropRetired copy)) := rfl
  rw [hskip, skipCopies, if_neg (by rw [State.setComposer_composer, dropRetired_eq]; exact Nat.not_le.mpr h)]

/-- What a retirement does at the Composer and the Patch Pool (R95, R108). -/
theorem copyRetired_result (copy : Nat) (s : State) :
    let t := copyRetired copy s
    t.composer.pages = (if (∃ e ∈ s.composer.pages.head?, e.first + e.copies = copy + 1) then s.composer.pages.drop 1
        else s.composer.pages)
      ∧ t.composer.nextSequence = s.composer.nextSequence ∧ t.composer.nextSerial = s.composer.nextSerial
      ∧ (if s.composer.copy ≤ copy then
          t.composer.copy = copy + 1 ∧ t.composer.line = 0 ∧ t.composer.flight = none
            ∧ t.pool.index = s.pool.index.filter (fun e => decide (copy < e.copy))
        else t.composer.copy = s.composer.copy ∧ t.composer.line = s.composer.line
          ∧ t.composer.flight = s.composer.flight ∧ t.composer.marks = s.composer.marks ∧ t.pool = s.pool) := by
  by_cases h : s.composer.copy ≤ copy
  · obtain ⟨hcomposer, hpool⟩ := copyRetired_of_le h
    dsimp only
    rw [hcomposer, hpool, dropRetired_eq, if_pos h]
    exact ⟨rfl, rfl, rfl, rfl, rfl, rfl, rfl⟩
  · dsimp only
    rw [copyRetired_of_lt (Nat.not_le.mp h), if_neg h, State.setComposer_composer, dropRetired_eq]
    exact ⟨rfl, rfl, rfl, rfl, rfl, rfl, rfl, rfl⟩

/-- R71, R73: the first placement retires in RUNNING and STOPPING once H has reached its last line's last offset. -/
def retires (s : State) (h : Int) : Prop :=
  (s.job.state = .running ∨ s.job.state = .stopping) ∧ ∃ q ∈ s.place.list.head?, q.start + q.length + s.place.dMax ≤ h

theorem placementTick_of_retires {s : State} {q : Placement} (h : retires s s.motion.h) (hq : q ∈ s.place.list.head?) :
    placementTick s = retirePlacement q s := by
  obtain ⟨hjob, q', hq', hreach⟩ := h
  obtain rfl : q = q' := Option.some.inj (hq.symm.trans hq')
  have hretiring : s.place.retiring s.motion.h = some q := by
    unfold PlacementUnit.retiring
    cases hl : s.place.list with
    | nil => simp [hl] at hq
    | cons x xs =>
      obtain rfl : x = q := by simpa [hl] using hq
      exact if_pos hreach
  simp only [placementTick, if_pos hjob, hretiring]

theorem placementTick_of_not_retires {s : State} (h : ¬retires s s.motion.h) : placementTick s = s := by
  unfold placementTick
  split
  · next hjob =>
    have hretiring : s.place.retiring s.motion.h = none := by
      unfold PlacementUnit.retiring
      cases hl : s.place.list with
      | nil => rfl
      | cons x xs => exact if_neg fun hreach => h ⟨hjob, x, by simp [hl], hreach⟩
    rw [hretiring]
  · rfl

/-- R72: a retirement, from the copy it announces. -/
theorem retirePlacement_eq (q : Placement) (s : State) :
    retirePlacement q s = copyRetired q.copy
      (tell [.count .copiesPrinted, .notice (.copyPrinted q.copy)] (s.setPlace { s.place with list := s.place.list.drop 1 })) := rfl

/-! ### The print tick -/

/-- R54: the line period, in the words of the statement. -/
theorem linePeriod_eq (last : Option Boundary) (now : Nat) :
    linePeriod last now = match last with
      | some ⟨stamp, true⟩ => if now - stamp ≤ 16777215 then some (now - stamp) else none
      | _ => none := by
  rcases last with _ | ⟨stamp, tick⟩
  · rfl
  · cases tick
    · rfl
    · simp [linePeriod, Config.maxLinePeriod]

/-- The Motion Unit once a print tick has been made (R46, R52 to R54). -/
def Motion.ticked (m : Motion) (r : Ratio) (now : Nat) : Motion :=
  Motion.rescaled { m.taken with
    rawCount := m.rawCount + 1, p := m.h + 1, h := m.h + 1, lastBoundary := some ⟨now, true⟩,
    period := linePeriod m.lastBoundary now } r (m.acc + r.n - r.m)

@[simp] theorem rescaled_h (m : Motion) (old : Ratio) (a : Nat) : (m.rescaled old a).h = m.h := by
  unfold Motion.rescaled; split <;> rfl

/-- The encoder's event as a print tick: the Motion Unit, the Placement Unit, and then the rows (R46, R49). -/
theorem exec_printTick {s : State} {r : Ratio} (hs : awake s) (hm : motionOk s) (ht : tickDue s) (hr : s.motion.ratio = some r) :
    exec .encoderFilterAccept s = .next (finish (rowsTick (placementTick (s.setMotion (s.motion.ticked r s.now))))) := by
  obtain ⟨hf, hj, hp, r', hr', hfull⟩ := ht
  obtain rfl : r = r' := Option.some.inj (hr.symm.trans hr')
  have hpast : s.motion.h < s.motion.p + 1 := by omega
  have htick := applyPending_eq_rescaled (m := { s.motion.taken with
    rawCount := s.motion.rawCount + 1, p := s.motion.p + 1, h := s.motion.p + 1, lastBoundary := some ⟨s.now, true⟩,
    period := linePeriod s.motion.lastBoundary s.now }) hr (s.motion.acc + r.n - r.m)
  rw [exec_forward_boundary hs hm hf hj hr hfull]
  have hboundary : ∀ m : Motion, m.h < m.p + 1 → forwardBoundary (s.setMotion m)
      = rowsTick (placementTick (s.setMotion (m.printTick (m.p + 1) s.now))) := fun m h => if_pos h
  rw [hboundary { s.motion.taken with rawCount := s.motion.rawCount + 1, acc := s.motion.acc + r.n - r.m } hpast]
  refine congrArg (fun m => Host.Outcome.next (finish (rowsTick (placementTick (s.setMotion m))))) ?_
  rw [Motion.ticked, ← hp]
  exact htick

theorem AddsNotices.ofFinish (c : CounterId) (s : State) : AddsNotices c s (finish s) := by
  refine ⟨?_, ?_, ?_, ?_⟩
  · rw [State.countOf, finish_counters]; rfl
  · rw [State.isAnnounced, finish_counters]; rfl
  · rw [finish_feed_notices]
  · rw [finish_feed_noticesLost]; exact id

/-- The rows at a print tick, behind a state that has served the placements. -/
theorem rowsTick_after_adds {c : CounterId} (hc : c.ofRows = false) (s : State) : AddsNotices c s (finish (rowsTick s)) :=
  (rowsTick_adds hc s).trans (.ofFinish c _)

theorem rowsTick_after_frame (s : State) : unchangedBut [.rings, .ports, .counters, .feed] s (finish (rowsTick s)) :=
  unchangedBut_finish (by simp) (rowsTick_frame s)

/-- R72: a retirement announces its copy. -/
theorem retirePlacement_announces (q : Placement) (s : State) :
    let t := retirePlacement q s
    t.countOf .copiesPrinted = saturatingInc (s.countOf .copiesPrinted) ∧ t.isAnnounced .copiesPrinted = true
      ∧ t.feed = (tell [.count .copiesPrinted, .notice (.copyPrinted q.copy)] s).feed := by
  obtain ⟨v, hv⟩ : ∃ v, v = s.setPlace { s.place with list := s.place.list.drop 1 } := ⟨_, rfl⟩
  have hretired : retirePlacement q s = copyRetired q.copy (placeNotice (.copyPrinted q.copy) (bump .copiesPrinted v)) := by
    rw [hv]; rfl
  have hcopy := copyRetired_frame q.copy (placeNotice (.copyPrinted q.copy) (bump .copiesPrinted v))
  have hbump := AddsNotices.ofNotice .copiesPrinted (.copyPrinted q.copy) (bump .copiesPrinted v)
  have hkept := AddsNotices.ofFrame (c := .copiesPrinted) hcopy (by simp) (by simp)
  have hcounters : v.counters = s.counters := by rw [hv]; rfl
  dsimp only
  rw [hretired]
  refine ⟨?_, ?_, ?_⟩
  · rw [hkept.count, hbump.count, countOf_bump, if_pos rfl, State.countOf, hcounters]
    rfl
  · rw [hkept.flag, hbump.flag, isAnnounced_bump, if_pos rfl]
  · exact (hcopy .feed (by simp)).trans (tell_congr [.count .copiesPrinted, .notice (.copyPrinted q.copy)] (by rw [hv]; rfl) hcounters).1

theorem retirePlacement_place (q : Placement) (s : State) :
    (retirePlacement q s).place = { s.place with list := s.place.list.drop 1 } := by
  rw [retirePlacement_eq, show ∀ u : State, (copyRetired q.copy u).place = u.place from fun u => copyRetired_frame q.copy u .place (by simp)]
  simp [tell]

/-- R95, R108: what a retirement does at the Composer and the Patch Pool. -/
theorem retirePlacement_result (q : Placement) (s : State) :
    let t := retirePlacement q s
    t.composer.pages = (if (∃ e ∈ s.composer.pages.head?, e.first + e.copies = q.copy + 1) then s.composer.pages.drop 1
        else s.composer.pages)
      ∧ t.composer.nextSequence = s.composer.nextSequence ∧ t.composer.nextSerial = s.composer.nextSerial
      ∧ (if s.composer.copy ≤ q.copy then
          t.composer.copy = q.copy + 1 ∧ t.composer.line = 0 ∧ t.composer.flight = none
            ∧ t.pool.index = s.pool.index.filter (fun e => decide (q.copy < e.copy))
        else t.composer.copy = s.composer.copy ∧ t.composer.line = s.composer.line
          ∧ t.composer.flight = s.composer.flight ∧ t.composer.marks = s.composer.marks ∧ t.pool = s.pool) := by
  have h := copyRetired_result q.copy
    (placeNotice (.copyPrinted q.copy) (bump .copiesPrinted (s.setPlace { s.place with list := s.place.list.drop 1 })))
  simp only [placeNotice_composer, bump_composer, placeNotice_pool, bump_pool] at h
  exact h

/-- Settles O34: the Motion Unit at a print tick, and the placement that retires or stays, before the rows are served. -/
theorem printTickUnits : Obligations.PrintTickUnits := by
  refine ⟨fun s r hs hm ht hr => ⟨_, exec_printTick hs hm ht hr, ?_, ?_⟩, fun s hs hm ht => ?_⟩
  · refine unchangedBut_finish (by simp) ?_
    have hserved := (placementTick_frame (s.setMotion (s.motion.ticked r s.now))).andThen (rowsTick_frame _)
      (ds := [.place, .composer, .pool, .rings, .ports, .counters, .feed]) (by simp) (by simp)
    exact (setMotion_frame s _).andThen hserved (by simp) (by simp)
  · obtain ⟨u, hu⟩ : ∃ u, u = s.setMotion (s.motion.ticked r s.now) := ⟨_, rfl⟩
    have hserved : (placementTick u).motion = u.motion := placementTick_frame u .motion (by simp)
    rw [← hu, show (finish (rowsTick (placementTick u))).motion = (placementTick u).motion from
      rowsTick_after_frame _ .motion (by simp), hserved, hu, State.setMotion_motion, Motion.ticked]
    exact congrArg (fun T => Motion.rescaled { s.motion.taken with
      rawCount := s.motion.rawCount + 1, p := s.motion.h + 1, h := s.motion.h + 1, lastBoundary := some ⟨s.now, true⟩, period := T }
      r (s.motion.acc + r.n - r.m)) (linePeriod_eq s.motion.lastBoundary s.now)
  · obtain ⟨r, hr, -⟩ := ht.2.2.2
    have hr : s.motion.ratio = some r := hr
    obtain ⟨u, hu⟩ : ∃ u, u = s.setMotion (s.motion.ticked r s.now) := ⟨_, rfl⟩
    have hexec := exec_printTick hs hm ht hr
    rw [← hu] at hexec
    have hmove : unchangedBut [.motion] s u := hu ▸ setMotion_frame s _
    have hjob : u.job = s.job := hmove .job (by simp)
    have hplace : u.place = s.place := hmove .place (by simp)
    have hcomposer : u.composer = s.composer := hmove .composer (by simp)
    have hpool : u.pool = s.pool := hmove .pool (by simp)
    have hfeed : u.feed = s.feed := hmove .feed (by simp)
    have hcounters : u.counters = s.counters := hmove .counters (by simp)
    have hh : u.motion.h = s.motion.h + 1 := by rw [hu, State.setMotion_motion, Motion.ticked, rescaled_h]
    have hcount : u.countOf .copiesPrinted = s.countOf .copiesPrinted := by rw [State.countOf, hcounters]; rfl
    have hrows := rowsTick_after_frame (placementTick u)
    have hadds := rowsTick_after_adds (c := .copiesPrinted) rfl (placementTick u)
    have hgoes : retires u u.motion.h ↔ (s.job.state = .running ∨ s.job.state = .stopping)
        ∧ ∃ q ∈ s.place.list.head?, q.start + q.length + s.place.dMax ≤ s.motion.h + 1 := by
      rw [retires, hjob, hplace, hh]
    refine ⟨_, hexec, ?_⟩
    dsimp only
    refine ⟨fun hstays => ?_, fun hleaves q hq => ?_⟩
    · rw [placementTick_of_not_retires (fun h => hstays (hgoes.mp h))] at hrows hadds ⊢
      exact ⟨(hrows .place (by simp)).trans hplace, (hrows .composer (by simp)).trans hcomposer, (hrows .pool (by simp)).trans hpool,
        hadds.count.trans hcount⟩
    · rw [placementTick_of_retires (hgoes.mpr hleaves) (hplace ▸ hq)] at hrows hadds ⊢
      obtain ⟨hcounted, hflag, htold⟩ := retirePlacement_announces q u
      have htold' := htold.trans (tell_congr [.count .copiesPrinted, .notice (.copyPrinted q.copy)] hfeed hcounters).1
      have hresult := retirePlacement_result q u
      rw [hcomposer, hpool] at hresult
      rw [show (finish (rowsTick (retirePlacement q u))).composer = (retirePlacement q u).composer from hrows .composer (by simp),
        show (finish (rowsTick (retirePlacement q u))).pool = (retirePlacement q u).pool from hrows .pool (by simp)]
      refine ⟨?_, ?_, hadds.flag.trans hflag, ⟨?_, ?_⟩, hresult⟩
      · rw [show (finish (rowsTick (retirePlacement q u))).place = (retirePlacement q u).place from hrows .place (by simp),
          retirePlacement_place, hplace]
      · rw [hadds.count, hcounted, hcount]
      · rw [← htold']
        exact hadds.notices
      · rw [← htold']
        exact hadds.lost

end Sys2Proof.Machine
end

section
/-! # The samples of the inputs (R38, R39, R60, R127)

Each filter and each fault count is followed on its own, over the levels its pin shows; the ticks then carry them all
side by side. -/

namespace Sys2Proof.Machine

/-! ### One filter and one fault count -/

/-- A filter after the first `n` samples of a pin (R38, R60). -/
def InputFilter.samples (x : InputFilter) (setting : Nat) (pin : Nat → Bool) : Nat → InputFilter
  | 0 => x
  | n + 1 => (x.samples setting pin n).sample setting (pin n)

theorem InputFilter.sample_same {x : InputFilter} {pin : Bool} (h : pin = x.level) (setting : Nat) :
    x.sample setting pin = ⟨x.level, none, false⟩ := if_pos h

theorem InputFilter.sample_other {x : InputFilter} {pin : Bool} (h : pin ≠ x.level) (setting : Nat) :
    x.sample setting pin = ⟨x.level, some (x.heldFor 0), decide (setting ≤ x.heldFor 0)⟩ := by
  rw [InputFilter.sample, if_neg h]
  cases hx : x.hold <;> simp [InputFilter.heldFor, hx]

@[simp] theorem InputFilter.samples_level (x : InputFilter) (setting : Nat) (pin : Nat → Bool) (n : Nat) :
    (x.samples setting pin n).level = x.level := by
  induction n with
  | zero => rfl
  | succ n ih => rw [InputFilter.samples, InputFilter.sample_level, ih]

/-- A sample at the accepted level clears the hold, whatever came before it (log 26). -/
theorem InputFilter.samples_same {x : InputFilter} {pin : Nat → Bool} {n : Nat} (h : pin n = x.level) (setting : Nat) :
    x.samples setting pin (n + 1) = ⟨x.level, none, false⟩ := by
  rw [InputFilter.samples, InputFilter.sample_same (by rw [h, samples_level]), samples_level]

/-- Over `n + 1` samples at the other level the hold grows by one sample each. -/
theorem InputFilter.samples_other {x : InputFilter} {pin : Nat → Bool} {n : Nat} (h : ∀ i < n + 1, pin i ≠ x.level) (setting : Nat) :
    x.samples setting pin (n + 1) = ⟨x.level, some (x.heldFor n), decide (setting ≤ x.heldFor n)⟩ := by
  induction n with
  | zero => exact InputFilter.sample_other (h 0 (by omega)) setting
  | succ n ih =>
    have hbefore := ih fun i hi => h i (by omega)
    have hnext : ∀ y : InputFilter, y.hold = some (x.heldFor n) → y.heldFor 0 = x.heldFor (n + 1) := fun y hy => by
      rw [InputFilter.heldFor, hy]
      cases hx : x.hold with
      | none => simp [InputFilter.heldFor, hx]
      | some k => simp [InputFilter.heldFor, hx]; omega
    rw [InputFilter.samples, InputFilter.sample_other (by rw [samples_level]; exact h (n + 1) (by omega)), samples_level,
      hnext _ (by rw [hbefore])]

/-- A port after the first `n` samples of its fault input (R127). -/
def HeadPort.faultSamples (p : HeadPort) (asserted : Nat → Bool) : Nat → HeadPort
  | 0 => p
  | n + 1 => (p.faultSamples asserted n).sampleFault (asserted n)

theorem HeadPort.sampleFault_eq (p : HeadPort) (asserted : Bool) :
    p.sampleFault asserted = { p with faultCount :=
      if p.state = .ready then (if asserted = true then p.faultCount + 1 else 0) else p.faultCount } := by
  unfold HeadPort.sampleFault
  split <;> rfl

theorem HeadPort.faultSamples_only (p : HeadPort) (asserted : Nat → Bool) (n : Nat) :
    p.faultSamples asserted n = { p with faultCount := (p.faultSamples asserted n).faultCount } := by
  induction n with
  | zero => rfl
  | succ n ih => rw [HeadPort.faultSamples, HeadPort.sampleFault_eq, ih]

theorem HeadPort.faultSamples_state (p : HeadPort) (asserted : Nat → Bool) (n : Nat) :
    (p.faultSamples asserted n).state = p.state := by rw [HeadPort.faultSamples_only]

/-- Over `n` asserted samples in READY the count grows by one each. -/
theorem HeadPort.faultSamples_asserted {p : HeadPort} {asserted : Nat → Bool} {n : Nat} (hready : p.state = .ready)
    (h : ∀ i < n, asserted i = true) : (p.faultSamples asserted n).faultCount = p.faultCount + n := by
  induction n with
  | zero => rfl
  | succ n ih =>
    rw [HeadPort.faultSamples, HeadPort.sampleFault_eq, faultSamples_state, if_pos hready, if_pos (h n (by omega)),
      ih fun i hi => h i (by omega)]
    rfl

/-- In READY a sample that is not asserted starts the count again. -/
theorem HeadPort.faultSamples_released {p : HeadPort} {asserted : Nat → Bool} {n : Nat} (hready : p.state = .ready)
    (h : asserted n = false) : (p.faultSamples asserted (n + 1)).faultCount = 0 := by
  rw [HeadPort.faultSamples, HeadPort.sampleFault_eq, faultSamples_state, if_pos hready, if_neg (by rw [h]; decide)]

/-- Another port does not count. -/
theorem HeadPort.faultSamples_idle {p : HeadPort} (hother : p.state ≠ .ready) (asserted : Nat → Bool) (n : Nat) :
    (p.faultSamples asserted n).faultCount = p.faultCount := by
  induction n with
  | zero => rfl
  | succ n ih => rw [HeadPort.faultSamples, HeadPort.sampleFault_eq, faultSamples_state, if_neg hother, ih]

/-! ### One tick -/

/-- What a tick takes from the outside (R38, R60): the time, the pin levels, and the words that fall into error. -/
def State.observed (s : State) : State :=
  { s with
    now := s.now + 1, pins := s.nextSample.pins, inputs := s.inputs.drop 1,
    memory := s.nextSample.upsets.foldl FrameMemory.upset s.memory }

theorem tick_eq (s : State) :
    tick s = if s.resetHeld then s.observed else sampleFaults (if s.sampled then sampleFilters s.observed else firstSample s.observed) :=
  rfl

theorem tick_sampling {s : State} (hsampled : s.sampled = true) (hreset : s.resetHeld = false) :
    tick s = sampleFaults (sampleFilters s.observed) := by
  rw [tick_eq, if_neg (by simp [hreset]), if_pos hsampled]

theorem tick_first {s : State} (hsampled : s.sampled = false) (hreset : s.resetHeld = false) :
    tick s = sampleFaults (firstSample s.observed) := by
  rw [tick_eq, if_neg (by simp [hreset]), if_neg (by simp [hsampled])]

theorem observed_frame (s : State) : unchangedBut [.outside, .memory] s s.observed := by
  intro b hb
  cases b with
  | outside | memory => simp at hb
  | _ => rfl

theorem sampleFaults_frame (s : State) : unchangedBut [.ports] s (sampleFaults s) := setPorts_frame s _

theorem sampleFilters_frame (s : State) : unchangedBut [.motion, .place] s (sampleFilters s) :=
  (setMotion_frame s _).andThen (setPlace_frame _ _) (by simp) (by simp)

theorem firstSample_frame (s : State) : unchangedBut [.outside, .motion, .place] s (firstSample s) := by
  intro b hb
  cases b with
  | outside | motion | place => simp at hb
  | _ => rfl

theorem tick_frame {s : State} (hreset : s.resetHeld = false) :
    unchangedBut [.outside, .motion, .place, .memory, .ports] s (tick s) := by
  cases hsampled : s.sampled with
  | true =>
    rw [tick_sampling hsampled hreset]
    exact (observed_frame s).andThen ((sampleFilters_frame _).andThen (sampleFaults_frame _) (ds := [.motion, .place, .ports])
      (by simp) (by simp)) (by simp) (by simp)
  | false =>
    rw [tick_first hsampled hreset]
    exact (observed_frame s).andThen ((firstSample_frame _).andThen (sampleFaults_frame _)
      (ds := [.outside, .motion, .place, .ports]) (by simp) (by simp)) (by simp) (by simp)

theorem sampleFaults_port (s : State) (h : Port) :
    (sampleFaults s).ports.get h = (s.ports.get h).sampleFault (s.pins.fault.get h) := Table.get_ofFun _ h

/-! ### The levels to come -/

theorem nextSample_pins (s : State) : s.nextSample.pins = s.pinsAt 0 := by
  unfold State.nextSample State.pinsAt
  cases s.inputs <;> rfl

/-- Where the samples run out, the pins keep the levels last shown. -/
theorem pinsAt_succ {s t : State} (hpins : t.pins = s.nextSample.pins) (hinputs : t.inputs = s.inputs.drop 1) (n : Nat) :
    t.pinsAt n = s.pinsAt (n + 1) := by
  unfold State.pinsAt
  rw [hpins, hinputs, State.nextSample]
  cases s.inputs with
  | nil => simp
  | cons x xs => cases hlast : xs.getLast? <;> simp [List.getLast?_cons, hlast]

/-! ### Any number of ticks -/

/-- The state `n` samples after `s`, where the part had sampled before (R38, R60, R127). -/
structure Sampled (s : State) (n : Nat) (t : State) : Prop where
  now : t.now = s.now + n
  inputs : t.inputs = s.inputs.drop n
  toCome : ∀ i, t.pinsAt i = s.pinsAt (n + i)
  sampled : t.sampled = true
  running : t.resetHeld = false
  kept : unchangedBut [.outside, .motion, .place, .memory, .ports] s t
  motion : t.motion = { s.motion with
    inputA := s.motion.inputA.samples s.motion.filter (fun i => (s.pinsAt i).a) n
    inputB := s.motion.inputB.samples s.motion.filter (fun i => (s.pinsAt i).b) n }
  place : t.place = { s.place with triggers := t.place.triggers }
  triggers : ∀ j : PdIx, t.place.triggers.get j = { s.place.triggers.get j with
    input := (s.place.triggers.get j).input.samples ((s.place.triggers.get j).filter * 100) (fun i => (s.pinsAt i).pd.get j) n }
  ports : ∀ h : Port, t.ports.get h = (s.ports.get h).faultSamples (fun i => (s.pinsAt i).fault.get h) n

theorem Sampled.refl {s : State} (hsampled : s.sampled = true) (hreset : s.resetHeld = false) : Sampled s 0 s where
  now := rfl
  inputs := rfl
  toCome i := by rw [Nat.zero_add]
  sampled := hsampled
  running := hreset
  kept := unchangedBut_refl _ s
  motion := rfl
  place := rfl
  triggers _ := rfl
  ports _ := rfl

/-- The pins a tick samples after `n` others. -/
theorem Sampled.nextPins {s t : State} {n : Nat} (h : Sampled s n t) : t.observed.pins = s.pinsAt n :=
  (nextSample_pins t).trans (h.toCome 0)

theorem Sampled.tick {s t : State} {n : Nat} (h : Sampled s n t) : Sampled s (n + 1) (tick t) := by
  have htick := tick_sampling h.sampled h.running
  have hpins : (sampleFaults (sampleFilters t.observed)).pins = t.nextSample.pins := rfl
  have hinputs : (sampleFaults (sampleFilters t.observed)).inputs = t.inputs.drop 1 := rfl
  have hmotion : (sampleFaults (sampleFilters t.observed)).motion = { t.motion with
      inputA := t.motion.inputA.sample t.motion.filter t.observed.pins.a
      inputB := t.motion.inputB.sample t.motion.filter t.observed.pins.b } := rfl
  have hplace : (sampleFaults (sampleFilters t.observed)).place = { t.place with
      triggers := (sampleFaults (sampleFilters t.observed)).place.triggers } := rfl
  have htrigger : ∀ j, (sampleFaults (sampleFilters t.observed)).place.triggers.get j = { t.place.triggers.get j with
      input := (t.place.triggers.get j).input.sample ((t.place.triggers.get j).filter * 100) (t.observed.pins.pd.get j) } :=
    fun j => Table.get_ofFun _ j
  have hport : ∀ x, (sampleFaults (sampleFilters t.observed)).ports.get x
      = (t.ports.get x).sampleFault (t.observed.pins.fault.get x) := sampleFaults_port _
  constructor
  case kept => exact h.kept.andThen (tick_frame h.running) (List.Subset.refl _) (List.Subset.refl _)
  all_goals rw [htick]
  case now => exact congrArg (· + 1) h.now
  case inputs => rw [hinputs, h.inputs, List.drop_drop]
  case toCome => exact fun i => (pinsAt_succ hpins hinputs i).trans ((h.toCome (i + 1)).trans (by congr 1; omega))
  case sampled => exact h.sampled
  case running => exact h.running
  case motion => rw [hmotion, h.nextPins, h.motion]; rfl
  case place => rw [hplace, h.place]
  case triggers => exact fun j => by rw [htrigger, h.nextPins, h.triggers]; rfl
  case ports => exact fun x => by rw [hport, h.nextPins, h.ports]; rfl

theorem sampled_ticks {s : State} (hsampled : s.sampled = true) (hreset : s.resetHeld = false) (n : Nat) : Sampled s n (ticks n s) := by
  induction n with
  | zero => exact .refl hsampled hreset
  | succ n ih => exact ih.tick

theorem Sampled.onlySampled {s t : State} {n : Nat} (h : Sampled s n t) : onlySampled s t :=
  ⟨by rw [h.motion], h.place, fun j => by rw [h.triggers], fun x => by rw [h.ports]; exact HeadPort.faultSamples_only _ _ _⟩

/-- Settles O3: the first sample by its fields, and `n + 1` samples by induction on the ticks. -/
theorem ticksSampleInputs : Obligations.TicksSampleInputs := by
  refine ⟨fun s hsampled hreset => ?_, fun s n hsampled hreset => ?_⟩
  · have hkept := tick_frame hreset
    rw [tick_first hsampled hreset] at hkept ⊢
    exact ⟨rfl, hkept, rfl, rfl, fun i => Table.get_ofFun _ i, fun x => (sampleFaults_port _ x).trans (HeadPort.sampleFault_eq _ _)⟩
  · have hbefore := sampled_ticks hsampled hreset n
    have h := hbefore.tick
    have hpins : (tick (ticks n s)).pins = s.pinsAt n := by
      rw [tick_sampling hbefore.sampled hbefore.running]
      exact hbefore.nextPins
    change Sampled s (n + 1) (ticks (n + 1) s) at h
    change (ticks (n + 1) s).pins = s.pinsAt n at hpins
    dsimp only
    refine ⟨h.now, hpins, h.inputs, h.sampled, h.kept, h.onlySampled, fun ho => ?_, fun ho => ?_, fun ha => ?_, fun hb => ?_,
      fun j ho => ?_, fun j hj => ?_, fun x => ?_⟩
    · rw [h.motion]; exact InputFilter.samples_other ho _
    · rw [h.motion]; exact InputFilter.samples_other ho _
    · rw [h.motion]; exact InputFilter.samples_same (pin := fun i => (s.pinsAt i).a) ha _
    · rw [h.motion]; exact InputFilter.samples_same (pin := fun i => (s.pinsAt i).b) hb _
    · rw [h.triggers]; exact InputFilter.samples_other ho _
    · rw [h.triggers]; exact InputFilter.samples_same (pin := fun i => (s.pinsAt i).pd.get j) hj _
    · rw [h.ports]
      split
      · next hready =>
        exact ⟨fun hall => HeadPort.faultSamples_asserted hready hall,
          fun hoff => HeadPort.faultSamples_released (asserted := fun i => (s.pinsAt i).fault.get x) hready hoff⟩
      · next hother => exact HeadPort.faultSamples_idle hother _ _

end Sys2Proof.Machine
end

section
/-! # Set Memory Plan (R78, R79) -/

namespace Sys2Proof.Machine

/-! ### The blocks of a plan (R78) -/

theorem planOf_eq_some {sl d0 d1 d2 d3 d4 d5 : BitVec 16} {q : Plan} (h : planOf sl d0 d1 d2 d3 d4 d5 = some q) :
    q = ⟨sl.toNat, #v[d0.toNat, d1.toNat, d2.toNat, d3.toNat, d4.toNat, d5.toNat]⟩ := by
  unfold planOf at h
  split at h
  · exact (Option.some.inj h).symm
  · cases h

section
variable (slots x0 x1 x2 x3 x4 x5 : Nat)

/-- The depth of each plane's ring, as the request lists them. -/
theorem get_planeFields_vector (p : Plane) :
    Table.get #v[x0, x1, x2, x3, x4, x5] p = [x0, x1, x2, x3, x4, x5].getD p.val 0 := by
  fin_cases p <;> rfl

/-- The rings stand in plane order: below a plane's ring lie those of the planes before it. -/
theorem Plan.depthBelow_plane (p : Plane) :
    Plan.depthBelow ⟨slots, #v[x0, x1, x2, x3, x4, x5]⟩ p.val = ([x0, x1, x2, x3, x4, x5].take p.val).sum := by
  fin_cases p <;> simp [Plan.depthBelow, allPlanes, Table.get] <;> omega

/-- The template region begins behind the pool slots and every ring. -/
theorem Plan.templateBase_eq :
    Plan.templateBase ⟨slots, #v[x0, x1, x2, x3, x4, x5]⟩ = slots + x0 + x1 + x2 + x3 + x4 + x5 := by
  simp [Plan.templateBase, Plan.depthBelow, allPlanes, Table.get]
  omega

end

/-! ### The request -/

theorem anyNotClosed_iff (f : Feed) :
    allDataCh.any (fun c => (f.channels.get c).state != .closed) = true ↔ ∃ c : DataCh, (f.channels.get c).state ≠ .closed := by
  have hall : ∀ c : DataCh, c ∈ allDataCh := by decide
  simp [hall]

/-- Set Memory Plan with every field in range in IDLE, test by test (R79). -/
theorem ownSetMemoryPlan_idle {sl d0 d1 d2 d3 d4 d5 : BitVec 16} {s : State}
    (h : outOfRange (.setMemoryPlan sl d0 d1 d2 d3 d4 d5) = false) (hj : s.job.state = .idle) :
    let q : Plan := ⟨sl.toNat, #v[d0.toNat, d1.toNat, d2.toNat, d3.toNat, d4.toNat, d5.toNat]⟩
    ownSetMemoryPlan sl d0 d1 d2 d3 d4 d5 s =
      if (∃ i : TemplateIx, (s.templates.records.get i).state ≠ .free) ∨ (∃ c : DataCh, (s.feed.channels.get c).state ≠ .closed)
        then (s, .plain .inUse)
      else if 262144 < q.templateBase then (s, .plain .space)
      else ((s.setMemory { s.memory with plan := some q }).setTemplates { s.templates with free := q.freeList },
        ⟨.done, leBytes 4 q.templateBase ++ leBytes 4 (262144 - q.templateBase)⟩) := by
  obtain ⟨q, hq⟩ : ∃ q, planOf sl d0 d1 d2 d3 d4 d5 = some q :=
    Option.ne_none_iff_exists'.mp fun e => by simp [outOfRange_setMemoryPlan.mpr e] at h
  obtain rfl := planOf_eq_some hq
  simp only [ownSetMemoryPlan, hq, hj, ne_eq, not_true, if_false]
  exact if_congr (by rw [Bool.or_eq_true, anyDefined_iff, anyNotClosed_iff]) rfl rfl

/-- Settles O18: the tests of Set Memory Plan in order, and the plan and the free extent it sets. -/
theorem setMemoryPlanResult : Obligations.SetMemoryPlanResult := by
  intro tag sl d0 d1 d2 d3 d4 d5 s hs sum
  refine configuration_result (r := .setMemoryPlan sl d0 d1 d2 d3 d4 d5) rfl hs fun ho hj => ?_
  have own := ownSetMemoryPlan_idle ho hj
  have hbase : Plan.templateBase ⟨sl.toNat, #v[d0.toNat, d1.toNat, d2.toNat, d3.toNat, d4.toNat, d5.toNat]⟩ = sum :=
    Plan.templateBase_eq ..
  simp only [Plan.freeList, Config.blocks, hbase] at own
  by_cases hused : (∃ i : TemplateIx, (s.templates.records.get i).state ≠ .free)
      ∨ (∃ c : DataCh, (s.feed.channels.get c).state ≠ .closed)
  · simp only [if_pos hused] at own ⊢
    exact exec_refused (r := .setMemoryPlan sl d0 d1 d2 d3 d4 d5) hs rfl own (.inr rfl)
  simp only [if_neg hused] at own ⊢
  by_cases hspace : 262144 < sum
  · simp only [if_pos hspace] at own ⊢
    exact exec_refused (r := .setMemoryPlan sl d0 d1 d2 d3 d4 d5) hs rfl own (.inr rfl)
  simp only [if_neg hspace] at own ⊢
  refine ⟨_, exec_answered (r := .setMemoryPlan sl d0 d1 d2 d3 d4 d5) hs rfl own (.inr rfl), ?_, answered_of rfl rfl, ?_⟩
  · exact unchangedBut_reply _ _ _ (by simp) ((setMemory_frame s _).andThen (setTemplates_frame _ _) (by simp) (by simp))
  · simp [FrameMemory.slots, FrameMemory.depth, FrameMemory.ringBase, get_planeFields_vector, Plan.depthBelow_plane]

end Sys2Proof.Machine
end

section
/-! # The free-extent list (R84, R85, R90) -/

namespace Sys2Proof.Machine

/-! ### The blocks of a list in the form of R84 -/

@[simp] theorem inExtents_nil (b : Nat) : inExtents [] b = false := rfl

@[simp] theorem inExtents_cons (e : Extent) (es : List Extent) (b : Nat) :
    inExtents (e :: es) b = true ↔ (e.first ≤ b ∧ b < e.first + e.blocks) ∨ inExtents es b = true := by
  simp [inExtents, Extent.has]

theorem inExtents_iff {es : List Extent} {b : Nat} :
    inExtents es b = true ↔ ∃ e ∈ es, e.first ≤ b ∧ b < e.first + e.blocks := by
  simp [inExtents, Extent.has]

/-- An extent in front of a list keeps the form of R84 when every block of the list lies above its end, with a block between. -/
theorem extentsOk_cons {e : Extent} {es : List Extent} :
    extentsOk (e :: es) = true
      ↔ 0 < e.blocks ∧ extentsOk es = true ∧ ∀ b : Nat, inExtents es b = true → e.first + e.blocks < b := by
  induction es generalizing e with
  | nil => simp [extentsOk]
  | cons x xs ih =>
    simp only [extentsOk, Bool.and_eq_true, decide_eq_true_iff, inExtents_cons]
    constructor
    · rintro ⟨⟨hpos, hgap⟩, hok⟩
      obtain ⟨-, -, habove⟩ := ih.mp hok
      refine ⟨hpos, hok, fun b hb => ?_⟩
      rcases hb with hb | hb
      · omega
      · have := habove b hb; omega
    · rintro ⟨hpos, hok, hgap⟩
      have hx := (ih.mp hok).1
      exact ⟨⟨hpos, hgap x.first (.inl ⟨le_rfl, by omega⟩)⟩, hok⟩

/-! ### Space taken (R85) -/

/-- First fit: the space taken begins at the low end of the first extent long enough. -/
theorem takeExtent_first (size : Nat) (es : List Extent) :
    (takeExtent size es).map Prod.fst = (es.find? (fun e => decide (size ≤ e.blocks))).map Extent.first := by
  induction es with
  | nil => rfl
  | cons e es ih =>
    by_cases h : size ≤ e.blocks
    · simp [takeExtent, h]
    · simpa [takeExtent, h, Function.comp_def] using ih

/-- Space taken lies in the list. -/
theorem inExtents_of_takeExtent {size first : Nat} {es rest : List Extent} (h : takeExtent size es = some (first, rest)) {b : Nat}
    (hb : first ≤ b ∧ b < first + size) : inExtents es b = true := by
  have hfirst := takeExtent_first size es
  rw [h, Option.map_some, eq_comm, Option.map_eq_some_iff] at hfirst
  obtain ⟨e, he, rfl⟩ := hfirst
  have hlong : size ≤ e.blocks := by simpa using List.find?_some he
  exact inExtents_iff.mpr ⟨e, List.mem_of_find?_eq_some he, by omega⟩

/-- What is left keeps the form of R84 and holds every block but those taken. -/
theorem takeExtent_rest {size first : Nat} {es rest : List Extent} (h : takeExtent size es = some (first, rest))
    (hok : extentsOk es = true) :
    extentsOk rest = true
      ∧ ∀ b : Nat, inExtents rest b = true ↔ inExtents es b = true ∧ ¬(first ≤ b ∧ b < first + size) := by
  induction es generalizing rest with
  | nil => simp [takeExtent] at h
  | cons e es ih =>
    obtain ⟨hpos, hes, habove⟩ := extentsOk_cons.mp hok
    simp only [takeExtent] at h
    split at h
    · next hlong =>
      obtain ⟨rfl, rfl⟩ := Prod.mk.inj (Option.some.inj h)
      split
      · next heq =>
        refine ⟨hes, fun b => ?_⟩
        have := habove b
        rw [inExtents_cons]
        exact ⟨fun hb => ⟨.inr hb, by have := this hb; omega⟩, fun hb => hb.1.resolve_left (by omega)⟩
      · next hne =>
        refine ⟨extentsOk_cons.mpr ⟨by dsimp only; omega, hes, fun b hb => by have := habove b hb; dsimp only; omega⟩, fun b => ?_⟩
        rw [inExtents_cons, inExtents_cons]
        constructor
        · rintro (hb | hb)
          · dsimp only at hb
            exact ⟨.inl (by omega), by omega⟩
          · exact ⟨.inr hb, by have := habove b hb; omega⟩
        · rintro ⟨hb | hb, hout⟩
          · exact .inl (by dsimp only; omega)
          · exact .inr hb
    · obtain ⟨⟨first', rest'⟩, htail, heq⟩ := Option.map_eq_some_iff.mp h
      obtain ⟨rfl, rfl⟩ := Prod.mk.inj heq
      obtain ⟨hrest, hblocks⟩ := ih htail hes
      refine ⟨extentsOk_cons.mpr ⟨hpos, hrest, fun b hb => habove b ((hblocks b).mp hb).1⟩, fun b => ?_⟩
      have htaken := fun hb => habove b (inExtents_of_takeExtent htail (b := b) hb)
      rw [inExtents_cons, inExtents_cons, hblocks]
      constructor
      · rintro (hb | hb)
        · exact ⟨.inl hb, fun hin => by have := htaken hin; omega⟩
        · exact ⟨.inr hb.1, hb.2⟩
      · rintro ⟨hb | hb, hout⟩
        · exact .inl hb
        · exact .inr ⟨hb, hout⟩

/-! ### Space given back (R90) -/

/-- An extent joined in front of a list that lies at or above its end. -/
theorem joinFront_space {e : Extent} {es : List Extent} (hpos : 0 < e.blocks) (hok : extentsOk es = true)
    (habove : ∀ b : Nat, inExtents es b = true → e.first + e.blocks ≤ b) :
    extentsOk (joinFront e es) = true
      ∧ ∀ b : Nat, inExtents (joinFront e es) b = true ↔ inExtents es b = true ∨ (e.first ≤ b ∧ b < e.first + e.blocks) := by
  cases es with
  | nil => exact ⟨by simpa [joinFront, extentsOk] using hpos, fun b => by simp [joinFront]⟩
  | cons x xs =>
    obtain ⟨hx, hxs, hgap⟩ := extentsOk_cons.mp hok
    have hfirst := habove x.first ((inExtents_cons ..).mpr (.inl ⟨le_rfl, by omega⟩))
    simp only [joinFront]
    split
    · next htouch =>
      have hjoined : ∀ b : Nat, e.first ≤ b ∧ b < e.first + (e.blocks + x.blocks)
          ↔ (x.first ≤ b ∧ b < x.first + x.blocks) ∨ (e.first ≤ b ∧ b < e.first + e.blocks) := by omega
      refine ⟨extentsOk_cons.mpr ⟨by dsimp only; omega, hxs, fun b hb => by have := hgap b hb; dsimp only; omega⟩, fun b => ?_⟩
      rw [inExtents_cons, inExtents_cons, or_right_comm, hjoined]
    · next happart =>
      refine ⟨extentsOk_cons.mpr ⟨hpos, hok, fun b hb => ?_⟩, fun b => by rw [inExtents_cons, or_comm]⟩
      rcases (inExtents_cons ..).mp hb with hb | hb
      · omega
      · have := hgap b hb; omega

/-- An extent that meets none of a list, given back to it: the form of R84 is kept, and the list holds the extent's blocks too. -/
theorem giveExtent_space {e : Extent} {es : List Extent} (hpos : 0 < e.blocks) (hok : extentsOk es = true)
    (hfree : ∀ x ∈ es, x.first + x.blocks ≤ e.first ∨ e.first + e.blocks ≤ x.first) :
    extentsOk (giveExtent e es) = true
      ∧ ∀ b : Nat, inExtents (giveExtent e es) b = true ↔ inExtents es b = true ∨ (e.first ≤ b ∧ b < e.first + e.blocks) := by
  induction es with
  | nil => exact ⟨by simpa [giveExtent, extentsOk] using hpos, fun b => by simp [giveExtent]⟩
  | cons x xs ih =>
    obtain ⟨hx, hxs, hgap⟩ := extentsOk_cons.mp hok
    obtain ⟨hfreex, hfreexs⟩ := List.forall_mem_cons.mp hfree
    unfold giveExtent
    split
    · next hbelow =>
      refine joinFront_space hpos hok fun b hb => ?_
      rcases (inExtents_cons ..).mp hb with hb | hb
      · omega
      · have := hgap b hb; omega
    split
    · next htouch =>
      have hjoin := joinFront_space (e := ⟨x.first, x.blocks + e.blocks⟩) (es := xs) (by dsimp only; omega) hxs fun b hb => by
        obtain ⟨y, hy, hyb⟩ := inExtents_iff.mp hb
        have := hgap b hb
        have := hfreexs y hy
        have := hgap y.first (inExtents_iff.mpr ⟨y, hy, by omega⟩)
        dsimp only
        omega
      have hjoined : ∀ b : Nat, x.first ≤ b ∧ b < x.first + (x.blocks + e.blocks)
          ↔ (x.first ≤ b ∧ b < x.first + x.blocks) ∨ (e.first ≤ b ∧ b < e.first + e.blocks) := by omega
      refine ⟨hjoin.1, fun b => ?_⟩
      rw [hjoin.2, inExtents_cons, hjoined, or_comm, or_right_comm]
    · next hbelow happart =>
      obtain ⟨hgive, hblocks⟩ := ih hxs hfreexs
      refine ⟨extentsOk_cons.mpr ⟨hx, hgive, fun b hb => ?_⟩, fun b => ?_⟩
      · rcases (hblocks b).mp hb with hb | hb
        · exact hgap b hb
        · omega
      · rw [inExtents_cons, inExtents_cons, hblocks, or_assoc]

end Sys2Proof.Machine
end

section
/-! # Define Template and Drop Template (R85, R86, R90) -/

namespace Sys2Proof.Machine

/-! ### Requests that wait for a template line (R86) -/

/-- While no template line is being written, no request waits for one. -/
theorem canServe_of_noWrite {s : State} {r : Request} (h : ready s) (hw : s.templates.writing = none) : s.canServe r = true := by
  simp [State.canServe, State.replyRoom, h.2, hw]

/-- A request whose reply ends its event, while no template line is being written. -/
theorem exec_answered_of_noWrite {tag : Byte} {r : Request} {s u : State} {a : Answer} (h : ready s)
    (hw : s.templates.writing = none) (ho : handle r s = (u, a)) (hf : effectFollows r = false) :
    exec (commandOf tag r) s = .next (finish (placeReply tag r.code a u)) := by
  rw [exec_commandOf, request_next tag h (canServe_of_noWrite h hw), serve, ho, afterReply_eq_self (.inr hf)]

/-- A request that its owner answers with an empty body and no effect, while no template line is being written. -/
theorem exec_refused_of_noWrite {tag : Byte} {r : Request} {s : State} {x : Result} (h : ready s)
    (hw : s.templates.writing = none) (ho : handle r s = (s, .plain x)) (hf : effectFollows r = false) :
    ∃ t : State, exec (commandOf tag r) s = .next t ∧ refused s t tag r.code x :=
  ⟨_, exec_answered_of_noWrite h hw ho hf, refused_of rfl⟩

/-! ### Define Template (R85) -/

theorem ownDefineTemplate_range {template : Byte} {length : BitVec 16} {s : State} (h : 15 < template.toNat ∨ length.toNat = 0) :
    ownDefineTemplate template length s = (s, .plain .range) := by
  unfold ownDefineTemplate
  split
  · rfl
  · next i hi => rw [if_pos (h.resolve_left fun hgt => by simp [templateNumber_eq_none.mpr hgt] at hi)]

/-- The fill counts of a template as the reply lists them (section 11.4). -/
theorem fillBytes_eq (g : Geometry) (r : TemplateRec) :
    fillBytes g r = allPlanes.flatMap (fun p =>
      leBytes 2 (if r.state ≠ .free ∧ 0 < (g.planes.get p).width then r.fill.get p else 0)) := by
  simp only [fillBytes, Geometry.configured, Bool.and_eq_true, decide_eq_true_iff, bne_iff_ne, and_comm]

section
variable {template : Byte} {length : BitVec 16} {s : State} {i : TemplateIx}

/-- Define Template of a template that is not FREE, or with no plane configured. -/
theorem ownDefineTemplate_state (hi : template.toNat = i.val) (hl : length.toNat ≠ 0)
    (h : (s.templates.records.get i).state ≠ .free ∨ s.geo.configuredPlanes = []) :
    ownDefineTemplate template length s
      = (s, ⟨.state, [(s.templates.records.get i).state.code] ++ fillBytes s.geo (s.templates.records.get i)⟩) := by
  simp only [ownDefineTemplate, templateNumber_eq_some.mpr hi, if_neg hl, List.isEmpty_iff]
  split_ifs with hfree hplanes
  · rfl
  · rfl
  · exact absurd h (not_or.mpr ⟨hfree, hplanes⟩)

/-- Define Template past its STATE test, by what the free-extent list gives. -/
theorem ownDefineTemplate_free (hi : template.toNat = i.val) (hl : length.toNat ≠ 0)
    (h : ¬((s.templates.records.get i).state ≠ .free ∨ s.geo.configuredPlanes = [])) :
    let size := length.toNat * s.geo.configuredPlanes.length
    ownDefineTemplate template length s = (takeExtent size s.templates.free).elim (s, .plain .space) fun taken =>
      (s.setTemplates { s.templates with
          records := s.templates.records.put i ⟨.filling, length.toNat, taken.1, size, .all 6 0⟩, free := taken.2 },
        ⟨.done, leBytes 4 taken.1 ++ leBytes 4 size⟩) := by
  obtain ⟨hfree, hplanes⟩ := not_or.mp h
  simp only [ownDefineTemplate, templateNumber_eq_some.mpr hi, if_neg hl, if_neg hfree, List.isEmpty_iff, if_neg hplanes]
  split <;> simp_all

end

/-! ### Drop Template (R90) -/

theorem ownDropTemplate_range {template : Byte} {s : State} (h : 15 < template.toNat) :
    ownDropTemplate template s = (s, .plain .range) := by
  simp [ownDropTemplate, templateNumber_eq_none.mpr h]

theorem names_template_iff (c : Composer) (i : TemplateIx) : c.names i = true ↔ ∃ e ∈ c.pages, e.template = some i := by
  simp [Composer.names]

/-- Drop Template of a template, test by test. -/
theorem ownDropTemplate_eq {template : Byte} {i : TemplateIx} (hi : template.toNat = i.val) (s : State) :
    ownDropTemplate template s =
      if (s.templates.records.get i).state = .free then (s, .plain .done)
      else if s.composer.names i = true then (s, .plain .inUse)
      else (s.setTemplates { s.templates with
          records := s.templates.records.put i .reset,
          free := giveExtent ⟨(s.templates.records.get i).first, (s.templates.records.get i).blocks⟩ s.templates.free },
        .plain .done) := by
  simp only [ownDropTemplate, templateNumber_eq_some.mpr hi]

/-! ### The two requests on the link -/

/-- What a request on a template does, from what it does past its range test. -/
theorem templateRequest_result {tag : Byte} {r : Request} {template : Byte} {out : Prop} [Decidable out] {s : State}
    {effect : State → TemplateIx → Prop} (hs : ready s) (hw : s.templates.writing = none) (hf : effectFollows r = false)
    (hnumber : ¬out → template.toNat ≤ 15) (hrange : out → handle r s = (s, .plain .range))
    (h : ¬out → ∀ i : TemplateIx, template.toNat = i.val → ∃ t : State, exec (commandOf tag r) s = .next t ∧ effect t i) :
    ∃ t : State, exec (commandOf tag r) s = .next t ∧
      (if out then refused s t tag r.code .range else ∀ i : TemplateIx, i.val = template.toNat → effect t i) := by
  by_cases hout : out
  · simp only [if_pos hout]
    exact exec_refused_of_noWrite hs hw (hrange hout) hf
  · simp only [if_neg hout]
    have := hnumber hout
    obtain ⟨i, hi⟩ : ∃ i : TemplateIx, template.toNat = i.val := ⟨⟨template.toNat, by omega⟩, rfl⟩
    obtain ⟨t, ht, heffect⟩ := h hout i hi
    exact ⟨t, ht, forall_val_eq hi heffect⟩

/-- Settles O19: the two requests test by test, with the extent each takes from the free-extent list or gives back to it. -/
theorem templateRequestResults : Obligations.TemplateRequestResults := by
  refine ⟨fun tag template length s hs hw => ?_, fun tag template s hs hw => ?_⟩
  · refine templateRequest_result (r := .defineTemplate template length) hs hw rfl (fun hin => by omega)
      ownDefineTemplate_range fun hin i hi => ?_
    have hl : length.toNat ≠ 0 := (not_or.mp hin).2
    have served := fun {u a} (own : ownDefineTemplate template length s = (u, a)) =>
      exec_answered_of_noWrite (tag := tag) (r := .defineTemplate template length) hs hw own rfl
    dsimp only
    rw [← fillBytes_eq]
    by_cases hstate : (s.templates.records.get i).state ≠ .free ∨ s.geo.configuredPlanes = []
    · simp only [if_pos hstate]
      exact ⟨_, served (ownDefineTemplate_state hi hl hstate), unchangedBut_reply _ _ _ (by simp) (unchangedBut_refl _ s),
        answered_of rfl rfl⟩
    simp only [if_neg hstate]
    have own := ownDefineTemplate_free hi hl hstate
    dsimp only at own
    have hfirst := takeExtent_first (length.toNat * s.geo.configuredPlanes.length) s.templates.free
    generalize length.toNat * s.geo.configuredPlanes.length = size at own hfirst ⊢
    cases htake : takeExtent size s.templates.free with
    | none =>
      rw [htake] at own hfirst
      have hnone : s.templates.free.find? (fun e => decide (size ≤ e.blocks)) = none := Option.map_eq_none_iff.mp hfirst.symm
      simp only [if_pos hnone]
      exact ⟨_, served own, refused_of rfl⟩
    | some taken =>
      obtain ⟨first, rest⟩ := taken
      rw [htake] at own hfirst
      obtain ⟨e, he, hef⟩ := Option.map_eq_some_iff.mp hfirst.symm
      simp only [he, reduceCtorEq, if_false, Option.mem_def, Option.some.injEq, forall_eq', hef]
      refine ⟨_, served own, unchangedBut_reply _ _ _ (by simp) ((setTemplates_frame s _).mono (by simp)), answered_of rfl rfl,
        by simp, by simpa using hw, fun hok => ?_⟩
      obtain ⟨hrest, hblocks⟩ := takeExtent_rest htake hok
      exact ⟨by simpa using hrest, fun b => Bool.eq_iff_iff.mpr (by simpa [imp_iff_not_or] using hblocks b)⟩
  · refine templateRequest_result (r := .dropTemplate template) hs hw rfl (fun hin => by omega) ownDropTemplate_range
      fun _ i hi => ?_
    have served := fun {u a} (own : ownDropTemplate template s = (u, a)) =>
      exec_answered_of_noWrite (tag := tag) (r := .dropTemplate template) hs hw own rfl
    have own := ownDropTemplate_eq hi s
    dsimp only
    by_cases hfree : (s.templates.records.get i).state = .free
    · simp only [if_pos hfree] at own ⊢
      exact ⟨_, served own, refused_of rfl⟩
    simp only [if_neg hfree, names_template_iff] at own ⊢
    by_cases hnamed : ∃ e ∈ s.composer.pages, e.template = some i
    · simp only [if_pos hnamed] at own ⊢
      exact ⟨_, served own, refused_of rfl⟩
    simp only [if_neg hnamed] at own ⊢
    refine ⟨_, served own, unchangedBut_reply _ _ _ (by simp) ((setTemplates_frame s _).mono (by simp)),
      answered_of (a := .plain .done) rfl rfl, ?_, fun j hj => ?_, by simpa using hw, fun hok hpos hapart => ?_⟩
    · simp [TemplateRec.reset]
    · rw [finish_templates]
      exact Table.get_put_ne _ _ hj.symm
    · obtain ⟨hgive, hblocks⟩ := giveExtent_space
        (e := ⟨(s.templates.records.get i).first, (s.templates.records.get i).blocks⟩) hpos hok hapart
      exact ⟨by simpa using hgive, fun b => Bool.eq_iff_iff.mpr (by simpa using hblocks b)⟩

end Sys2Proof.Machine
end

section
/-! # The writes of a patch and of a template line complete (R77, R87, R98, R102) -/

namespace Sys2Proof.Machine

/-! ### Reading the memory after a block write (R77) -/

theorem wordInBlock_iff {block w : Nat} : wordInBlock block w = true ↔ w / 512 = block := by
  unfold wordInBlock firstWord Config.blockWords
  rw [decide_eq_true_iff]
  omega

/-- A block write leaves no word of its block in error, and the words of the other blocks as they were. -/
theorem FrameMemory.errorAt_writeBlock (m : FrameMemory) (block : Nat) (bytes : List Byte) (w : Nat) :
    (m.writeBlock block bytes).errorAt w = if wordInBlock block w = true then none else m.errorAt w := by
  have hfind : (m.writeBlock block bytes).errorAt w
      = (m.errors.find? (fun e => !wordInBlock block e.1 && e.1 == w)).map (·.2) := by
    simp only [FrameMemory.errorAt, FrameMemory.writeBlock, List.find?_filter, Bool.decide_and, Bool.decide_eq_true]
  rw [hfind]
  split
  · next hin =>
    rw [Option.map_eq_none_iff, List.find?_eq_none]
    intro e _ h
    simp only [Bool.and_eq_true, Bool.not_eq_true', beq_iff_eq] at h
    rw [h.2, hin] at h
    exact absurd h.1 (by decide)
  · next hout =>
    have hsame : (fun e : Nat × WordError => !wordInBlock block e.1 && e.1 == w) = fun e => e.1 == w := by
      funext e
      by_cases he : e.1 = w
      · simp [he, hout]
      · simp [he]
    rw [hsame, FrameMemory.errorAt]

/-- A block read after its write delivers the pixels written. -/
theorem FrameMemory.pixel_writeBlock (m : FrameMemory) (block : Nat) (bytes : List Byte) {col : Nat} (h : col < 16384) :
    (m.writeBlock block bytes).pixel block col = areaPixel bytes col := by
  have hword : wordInBlock block (firstWord block + col / 32) = true := by
    rw [wordInBlock_iff, firstWord, Config.blockWords]
    omega
  have hbyte : (m.writeBlock block bytes).byte (block * Config.blockBytes + col / 4) = bytes.getD (col / 4) 0 := by
    rw [byte_writeBlock, if_pos (by simp only [Config.blockBytes]; omega), Nat.add_sub_cancel_left, List.getD_eq_getElem?_getD,
      List.getElem?_take_of_lt (by simp only [Config.blockBytes]; omega), ← List.getD_eq_getElem?_getD]
    rfl
  simp only [FrameMemory.pixel, errorAt_writeBlock, hword, if_true, reduceCtorEq, if_false, hbyte, areaPixel]

/-- A block write leaves the memory outside its block alone. -/
theorem memoryKeptBut_writeBlock {s t : State} {block : Nat} {bytes : List Byte} (h : t.memory = s.memory.writeBlock block bytes) :
    memoryKeptBut [block] s t := by
  simp only [memoryKeptBut, h, List.mem_singleton]
  refine ⟨fun a ha => ?_, fun w hw => ?_, FrameMemory.writeBlock_plan ..⟩
  · rw [FrameMemory.byte_writeBlock, if_neg (by simp only [Config.blockBytes]; omega)]
  · rw [FrameMemory.errorAt_writeBlock, if_neg (mt wordInBlock_iff.mp hw)]

/-- An event on blocks of the memory takes place. -/
theorem actOn_of_inside {s : State} {blocks : List Nat} {event : State → State} (hin : ∀ b ∈ blocks, b < 262144) (hs : awake s) :
    actOn s blocks event = .next (finish (event s)) := by
  have hnone : outsideMemory blocks = none :=
    List.find?_eq_none.mpr fun b hb => by rw [decide_eq_true_iff]; exact not_le.mpr (hin b hb)
  rw [actOn, hnone]
  exact act_of_can rfl hs

/-! ### The patch index (R96, R98) -/

theorem PatchEntry.le_iff {a b : PatchEntry} :
    a.le b = true ↔ a.copy < b.copy
      ∨ (a.copy = b.copy ∧ (a.plane.val < b.plane.val ∨ (a.plane = b.plane ∧ a.line ≤ b.line))) := by
  simp [PatchEntry.le]

theorem PatchEntry.le_trans {a b c : PatchEntry} (hab : a.le b = true) (hbc : b.le c = true) : a.le c = true := by
  rw [PatchEntry.le_iff, Fin.ext_iff] at *
  omega

theorem PatchEntry.le_iff_line {a b : PatchEntry} (hcopy : a.copy = b.copy) (hplane : a.plane = b.plane) :
    a.le b = true ↔ a.line ≤ b.line := by
  simp [PatchEntry.le_iff, hcopy, hplane]

/-- An entry is placed behind a run of entries that stand before or beside it, and in front of one that does not. -/
theorem insertPatch_split (e : PatchEntry) (xs : List PatchEntry) :
    ∃ n : Nat, n ≤ xs.length ∧ insertPatch e xs = xs.take n ++ e :: xs.drop n
      ∧ (∀ x ∈ xs.take n, x.le e = true) ∧ ∀ x ∈ (xs.drop n).head?, x.le e = false := by
  induction xs with
  | nil => exact ⟨0, by simp [insertPatch]⟩
  | cons x xs ih =>
    cases hle : x.le e with
    | true =>
      obtain ⟨n, hn, heq, hbefore, hnext⟩ := ih
      exact ⟨n + 1, by simpa using hn, by simp [insertPatch, hle, heq],
        by simpa [hle] using hbefore, by simpa using hnext⟩
    | false => exact ⟨0, by simp, by simp [insertPatch, hle], by simp, by simpa using hle⟩

/-- In an index that is in order, no entry behind the first that stands behind `e` stands before or beside `e`. -/
theorem le_eq_false_of_head {e : PatchEntry} {xs : List PatchEntry} (hsorted : xs.Pairwise (fun x y => x.le y = true))
    (hhead : ∀ x ∈ xs.head?, x.le e = false) : ∀ x ∈ xs, x.le e = false := by
  cases xs with
  | nil => simp
  | cons y ys =>
    have hy : y.le e = false := hhead y rfl
    intro x hx
    rcases List.mem_cons.mp hx with rfl | hx
    · exact hy
    · refine Bool.eq_false_iff.mpr fun hle => ?_
      have hyx := (List.pairwise_cons.mp hsorted).1 x hx
      rw [PatchEntry.le_trans hyx hle] at hy
      cases hy

/-! ### The accepted-patch count (R102) -/

theorem saturatingInc_eq (n : BitVec 32) : saturatingInc n = if n = 0xFFFFFFFF then 0xFFFFFFFF else n + 1 := by
  unfold saturatingInc
  split
  · assumption
  · rfl

theorem markOf_updMark (c : Composer) (copy k : Nat) {f : MarkEntry → MarkEntry} (hf : ∀ m, (f m).copy = m.copy) :
    (c.updMark copy f).markOf k = (c.markOf k).map (fun m => if k = copy then f m else m) := by
  have hcopy : (fun m : MarkEntry => (if m.copy = copy then f m else m).copy == k) = fun m => m.copy == k := by
    funext m
    split <;> simp [hf]
  simp only [Composer.markOf, Composer.updMark, List.find?_map, Function.comp_def, hcopy]
  refine Option.map_congr fun m hm => ?_
  have hmk : m.copy = k := by simpa using List.find?_some hm
  rw [hmk]

/-! ### A patch's write completes (R98) -/

theorem exec_patchWriteComplete {s : State} {w : PatchWrite} (hs : awake s) (hw : s.pool.writing = some w)
    (hslot : w.entry.slot < 262144) : exec .patchWriteComplete s = .next (finish (finishPatchWrite w s)) := by
  change execPatchWriteComplete s = _
  rw [execPatchWriteComplete, hw]
  exact actOn_of_inside (by simpa using hslot) hs

/-! ### A template line's write completes (R87) -/

theorem exec_templateLineWriteComplete {s : State} {w : TemplateWrite} (hs : awake s) (hw : s.templates.writing = some w)
    (hblock : w.block < 262144) : exec .templateLineWriteComplete s = .next (finish (finishLineWrite w s)) := by
  change execTemplateLineWriteComplete s = _
  rw [execTemplateLineWriteComplete, hw]
  exact actOn_of_inside (by simpa using hblock) hs

/-- The state with a template line stored, its plane's fill count raised and its template in state `st` (R87 steps 1 to 3). -/
def State.lineStored (s : State) (w : TemplateWrite) (st : TemplateState) : State :=
  let r := s.templates.records.get w.template
  (s.setMemory (s.memory.writeBlock w.block w.pixels)).setTemplates { s.templates with
    records := s.templates.records.put w.template { r with state := st, fill := r.fill.upd w.plane (· + 1) }, writing := none }

theorem full_iff (r : TemplateRec) (g : Geometry) :
    r.full g = true ↔ ∀ p : Plane, (g.planes.get p).width ≠ 0 → r.fill.get p = r.length := by
  simp only [TemplateRec.full, List.all_eq_true, mem_configuredPlanes, beq_iff_eq]

/-- The line being written is the last of its template: with it every configured plane holds all its lines (R87 step 4). -/
abbrev TemplateWrite.completes (w : TemplateWrite) (s : State) : Prop :=
  ∀ p : Plane, (s.geo.planes.get p).width ≠ 0 →
    (if p = w.plane then (s.templates.records.get w.template).fill.get p + 1 else (s.templates.records.get w.template).fill.get p)
      = (s.templates.records.get w.template).length

theorem TemplateWrite.completes_iff (w : TemplateWrite) (s : State) :
    TemplateRec.full { s.templates.records.get w.template with
        fill := (s.templates.records.get w.template).fill.upd w.plane (· + 1) } s.geo = true ↔ w.completes s := by
  simp only [full_iff, Table.get_upd, eq_comm (a := w.plane)]

/-- Everything the end of a template line's write can do (R87). -/
theorem finishLineWrite_eq (w : TemplateWrite) (s : State) :
    finishLineWrite w s = if w.completes s then placeNotice (.templateComplete w.template) (s.lineStored w .complete)
      else s.lineStored w (s.templates.records.get w.template).state := by
  by_cases h : w.completes s
  · simp only [finishLineWrite, (w.completes_iff s).mpr h, if_true, if_pos h]
    rfl
  · simp only [finishLineWrite, mt (w.completes_iff s).mp h, Bool.false_eq_true, if_false, if_neg h]
    rfl

theorem finishLineWrite_memory (w : TemplateWrite) (s : State) :
    (finishLineWrite w s).memory = s.memory.writeBlock w.block w.pixels := by
  rw [finishLineWrite_eq]
  split
  · exact placeNotice_memory _ _
  · rfl

theorem finishLineWrite_templates (w : TemplateWrite) (s : State) :
    (finishLineWrite w s).templates
      = (s.lineStored w (if w.completes s then .complete else (s.templates.records.get w.template).state)).templates := by
  rw [finishLineWrite_eq]
  split
  · exact placeNotice_templates _ _
  · rfl

theorem finishLineWrite_announces (w : TemplateWrite) (s : State) :
    announced (if w.completes s then [.notice (.templateComplete w.template)] else []) s (finish (finishLineWrite w s)) := by
  rw [finishLineWrite_eq]
  split
  · exact announced_tell (u := s.lineStored w .complete) rfl rfl rfl rfl
  · exact announced_of (signs := []) rfl rfl

/-- The record of a template after a line of it is stored. -/
theorem lineStored_record (s : State) (w : TemplateWrite) (st : TemplateState) :
    (s.lineStored w st).templates.records.get w.template
      = { s.templates.records.get w.template with
          state := st, fill := (s.templates.records.get w.template).fill.upd w.plane (· + 1) } :=
  Table.get_put_self ..

/-- Settles O45: each write's block, read back, and what it changes of the index and the mark table, or of its template. -/
theorem blockWriteResults : Obligations.BlockWriteResults := by
  refine ⟨fun w s hs _ hw hslot => ?_, fun w s hs _ hw hblock => ?_⟩
  · have hexec := exec_patchWriteComplete hs hw hslot
    have hmem : (finish (finishPatchWrite w s)).memory = s.memory.writeBlock w.entry.slot w.pixels := by
      simp [finishPatchWrite]
    refine ⟨_, hexec, exec_patchWriteComplete_frame hexec, announced_of (signs := []) rfl rfl, fun col hcol => ?_,
      memoryKeptBut_writeBlock hmem, ?_, by simp [finishPatchWrite, Composer.updMark], fun copy => ?_⟩
    · rw [hmem, FrameMemory.pixel_writeBlock _ _ _ hcol]
    · obtain ⟨n, hn, heq, hbefore, hnext⟩ := insertPatch_split w.entry s.pool.index
      refine ⟨n, hn, by simp [finishPatchWrite, heq], fun x hx hcopy hplane => ?_, fun hindex x hx hcopy hplane => ?_⟩
      · exact (PatchEntry.le_iff_line hcopy hplane).mp (hbefore x hx)
      · have hbehind := le_eq_false_of_head (hindex.1.sublist (List.drop_sublist ..)) hnext x hx
        exact not_le.mp fun hle => by rw [(PatchEntry.le_iff_line hcopy hplane).mpr hle] at hbehind; cases hbehind
    · simp only [← saturatingInc_eq, finishPatchWrite, finish_composer, State.setComposer_composer, State.setPool_composer,
        State.setMemory_composer]
      exact markOf_updMark (f := fun m => { m with accepted := saturatingInc m.accepted }) _ _ _ fun _ => rfl
  · have hexec := exec_templateLineWriteComplete hs hw hblock
    have frame := exec_templateLineWriteComplete_frame hexec
    have hmem : (finish (finishLineWrite w s)).memory = s.memory.writeBlock w.block w.pixels := by
      rw [finish_memory, finishLineWrite_memory]
    refine ⟨_, hexec, frame, fun col hcol => ?_, memoryKeptBut_writeBlock hmem, ?_⟩
    · rw [hmem, FrameMemory.pixel_writeBlock _ _ _ hcol]
    · simp only [finish_templates, finishLineWrite_templates, lineStored_record, Table.get_upd, eq_comm (a := w.plane),
        implies_true, true_and]
      exact ⟨rfl, rfl, fun j hj => Table.get_put_ne _ _ hj.symm, finishLineWrite_announces w s⟩

end Sys2Proof.Machine
end

section
/-! # Template-line frames (R83, R86 to R88) -/

namespace Sys2Proof.Machine

/-! ### The pixels of an area (R179) -/

/-- The pixels that the four pairs of bits of a byte hold. -/
theorem pixelOfByte_pack {a b c d : Nat} (ha : a < 4) (hb : b < 4) (hc : c < 4) (hd : d < 4) :
    pixelOfByte (BitVec.ofNat 8 (a + 4 * b + 16 * c + 64 * d)) 0 = a
      ∧ pixelOfByte (BitVec.ofNat 8 (a + 4 * b + 16 * c + 64 * d)) 1 = b
      ∧ pixelOfByte (BitVec.ofNat 8 (a + 4 * b + 16 * c + 64 * d)) 2 = c
      ∧ pixelOfByte (BitVec.ofNat 8 (a + 4 * b + 16 * c + 64 * d)) 3 = d := by
  simp only [pixelOfByte, BitVec.toNat_ofNat]
  omega

theorem areaPixel_lt (area : List Byte) (i : Nat) : areaPixel area i < 4 := Nat.mod_lt _ (by decide)

/-- Packed pixels read back level by level, and as level 0 beyond their number. -/
theorem areaPixel_packPixels (n : Nat) (f : Nat → Nat) (i : Nat) :
    areaPixel (packPixels n f) i = if i < n then f i % 4 else 0 := by
  have hlt : ∀ j : Nat, (if j < n then f j % 4 else 0) < 4 := fun j => by split <;> omega
  obtain ⟨k, j, hj, rfl⟩ : ∃ k j : Nat, j < 4 ∧ i = 4 * k + j := ⟨i / 4, i % 4, Nat.mod_lt _ (by decide), by omega⟩
  have hdiv : (4 * k + j) / 4 = k := by omega
  have hmod : (4 * k + j) % 4 = j := by omega
  rw [areaPixel, hdiv, hmod, packPixels, List.getD_eq_getElem?_getD, List.getElem?_map]
  by_cases hk : k < (n + 3) / 4
  · rw [List.getElem?_range hk, Option.map_some, Option.getD_some]
    obtain ⟨h0, h1, h2, h3⟩ := pixelOfByte_pack (hlt (4 * k)) (hlt (4 * k + 1)) (hlt (4 * k + 2)) (hlt (4 * k + 3))
    interval_cases j
    · exact h0
    · exact h1
    · exact h2
    · exact h3
  · rw [List.getElem?_eq_none (by simpa using hk), if_neg (by omega)]
    simp [pixelOfByte]

/-! ### The frame taken (R86) -/

/-- The frame taken is the first of its kind and channel, and the others stay in their order. -/
theorem takeFrame_append {isPatch : Bool} {ch : DataCh} {pre post : List DataFrame} {f : DataFrame} (hf : f.isPatch = isPatch)
    (hc : f.channel = ch) (hpre : ∀ g ∈ pre, ¬(g.isPatch = isPatch ∧ g.channel = ch)) :
    takeFrame isPatch ch (pre ++ f :: post) = some (f, pre ++ post) := by
  induction pre with
  | nil => simp [takeFrame, hf, hc]
  | cons g pre ih =>
    obtain ⟨hg, hrest⟩ := List.forall_mem_cons.mp hpre
    simp [takeFrame, hg, ih hrest]

theorem exec_templateLineFrame {s : State} {ch : DataCh} {f : DataFrame} {rest : List DataFrame} (hs : awake s)
    (hw : s.templates.writing = none) (ht : takeFrame false ch s.feed.awaiting = some (f, rest)) :
    exec (.templateLineFrame ch) s = .next (finish (takeTemplateLine f rest s)) := by
  change execTemplateLineFrame ch s = _
  rw [execTemplateLineFrame, ht]
  exact act_of_can (by simp [hw]) hs

/-! ### The drop tests in order (R86) -/

section
variable {s : State} {f : DataFrame}

/-- Test 1 of R86, of the channel's state and of the plane, where the payload holds one. -/
abbrev offChannel (s : State) (f : DataFrame) : Prop :=
  (s.feed.channels.get f.channel).state ≠ .opened
    ∨ (6 ≤ f.payload.length ∧ (s.feed.channels.get f.channel).planes.getLsbD (lineHeaderOf f.payload).plane.toNat = false)

theorem lineDropReason_channel (h : offChannel s f) : lineDropReason s f = some .channel := by
  unfold lineDropReason
  by_cases hshort : f.payload.length < 6
  · simp only [if_pos hshort, if_pos (h.resolve_right fun hr => by omega)]
  · simp only [if_neg hshort]
    exact if_pos (h.imp_right fun hr => hr.2)

theorem lineDropReason_short (h : ¬offChannel s f) (hshort : f.payload.length < 6) : lineDropReason s f = some .length := by
  unfold lineDropReason
  simp only [if_pos hshort, if_neg (not_or.mp h).1]

/-- A frame that passes test 1 with its fixed part whole, by the tests behind it. -/
theorem lineDropReason_whole (h : ¬offChannel s f) (hwhole : ¬f.payload.length < 6) :
    let x := lineHeaderOf f.payload
    lineDropReason s f = if f.intact = false then some .payload
      else (templateNumber x.template).elim (some .state) fun i => (planeNumber x.plane).elim (some .state) fun p =>
        let r := s.templates.records.get i
        if r.state ≠ .filling ∨ s.geo.configured p = false then some .state
        else if x.line ≠ r.fill.get p ∨ r.length ≤ r.fill.get p then some .order
        else if x.count ≠ (s.geo.planes.get p).width ∨ f.payload.length ≠ dataLength 6 x.count then some .length
        else none := by
  obtain ⟨hopen, hplane⟩ := not_or.mp h
  have hchannel : ¬((s.feed.channels.get f.channel).state ≠ .opened
      ∨ inPlaneSet (s.feed.channels.get f.channel).planes (lineHeaderOf f.payload).plane = false) :=
    not_or.mpr ⟨hopen, fun e => hplane ⟨by omega, e⟩⟩
  simp only [lineDropReason, if_neg hwhole, if_neg hchannel]
  cases templateNumber (lineHeaderOf f.payload).template <;> cases planeNumber (lineHeaderOf f.payload).plane <;> rfl

/-- The tests behind those of the channel, the payload and the template number, on a template and a plane. -/
theorem lineDropReason_numbered (h : ¬offChannel s f) (hwhole : ¬f.payload.length < 6) (hintact : f.intact ≠ false)
    {i : TemplateIx} {p : Plane} (hi : (lineHeaderOf f.payload).template.toNat = i.val)
    (hp : (lineHeaderOf f.payload).plane.toNat = p.val) :
    let x := lineHeaderOf f.payload
    let r := s.templates.records.get i
    let width := (s.geo.planes.get p).width
    lineDropReason s f = if r.state ≠ .filling ∨ width = 0 then some .state
      else if x.line ≠ r.fill.get p ∨ r.length ≤ x.line then some .order
      else if x.count ≠ width ∨ f.payload.length ≠ 6 + (width + 3) / 4 then some .length
      else none := by
  dsimp only
  rw [lineDropReason_whole h hwhole, if_neg hintact, templateNumber_eq_some.mpr hi, planeNumber_eq_some.mpr hp, Option.elim_some,
    Option.elim_some]
  refine if_congr (or_congr_right ?_) rfl (if_congr ?_ rfl (if_congr ?_ rfl rfl))
  · rw [Bool.eq_false_iff, ne_eq, configured_iff, not_not]
  · exact or_congr_right' fun hline => by rw [not_not.mp hline]
  · exact or_congr_right' fun hcount => by rw [not_not.mp hcount, dataLength]

end

/-! ### A line dropped, and a line accepted -/

section
variable {s : State} {ch : DataCh} {f : DataFrame} {rest : List DataFrame}

/-- R88: a dropped line on the link. -/
theorem templateLine_dropped (hs : awake s) (hw : s.templates.writing = none)
    (ht : takeFrame false ch s.feed.awaiting = some (f, rest)) {r : DropReason} (hr : lineDropReason s f = some r) :
    ∃ t : State, exec (.templateLineFrame ch) s = .next t ∧ unchangedBut [.counters, .feed] s t
      ∧ announced [.count .templateLinesDropped, .notice (.patchDropped (.templateLine (lineHeaderOf f.payload).plane
          (lineHeaderOf f.payload).template (.ofNat 16 (lineHeaderOf f.payload).line)) r)]
        { s with feed := { s.feed with awaiting := rest } } t := by
  have hdrop : takeTemplateLine f rest s = dropLine f r (s.setFeed { s.feed with awaiting := rest }) := by
    have hr : lineDropReason (s.setFeed { s.feed with awaiting := rest }) f = some r := hr
    simp only [takeTemplateLine, hr]
  refine ⟨_, exec_templateLineFrame hs hw ht, unchangedBut_finish (by simp) ?_, announced_of ?_ ?_⟩ <;> rw [hdrop]
  · exact (setFeed_frame s _).andThen (dropLine_frame f r _) (by simp) (List.Subset.refl _)
  · rfl
  · rfl

/-- R83: the rank of a plane counts the configured planes before it. -/
theorem rank_eq (g : Geometry) (p : Plane) :
    g.rank p = (allPlanes.filter (fun q => decide (q < p ∧ (g.planes.get q).width ≠ 0))).length := by
  refine congrArg List.length (List.filter_congr fun q _ => ?_)
  rw [Bool.eq_iff_iff, Bool.and_eq_true, configured_iff, decide_eq_true_iff, decide_eq_true_iff, and_comm]
  rfl

/-- R86, R87: a line that no test drops begins its write. -/
theorem takeTemplateLine_accepts {i : TemplateIx} {p : Plane} (hi : (lineHeaderOf f.payload).template.toNat = i.val)
    (hp : (lineHeaderOf f.payload).plane.toNat = p.val) (hr : lineDropReason s f = none) :
    takeTemplateLine f rest s = (s.setFeed { s.feed with awaiting := rest }).setTemplates { s.templates with
      writing := some ⟨f.channel, i, p, templateBlock s.geo (s.templates.records.get i) p (lineHeaderOf f.payload).line,
        packPixels (lineHeaderOf f.payload).count (areaPixel (f.payload.drop 6))⟩ } := by
  have hr : lineDropReason (s.setFeed { s.feed with awaiting := rest }) f = none := hr
  simp only [takeTemplateLine, hr, beginLineWrite, templateNumber_eq_some.mpr hi, planeNumber_eq_some.mpr hp]
  rfl

end

/-- Settles O46: the drop tests of R86 in order, and the write of a line that passes them. -/
theorem templateLineFrameResult : Obligations.TemplateLineFrameResult := by
  intro ch pre post f s hs hw hawait hkind hc hpre
  have htake : takeFrame false ch s.feed.awaiting = some (f, pre ++ post) := hawait ▸ takeFrame_append hkind hc hpre
  have dropped := fun {r} => templateLine_dropped (r := r) hs hw htake
  subst hc
  dsimp only
  by_cases hchannel : offChannel s f
  · rw [if_pos hchannel]
    exact dropped (lineDropReason_channel hchannel)
  rw [if_neg hchannel]
  by_cases hshort : f.payload.length < 6
  · rw [if_pos hshort]
    exact dropped (lineDropReason_short hchannel hshort)
  rw [if_neg hshort]
  have hwhole := lineDropReason_whole hchannel hshort
  dsimp only at hwhole
  by_cases hintact : f.intact = false
  · rw [if_pos hintact] at hwhole ⊢
    exact dropped hwhole
  rw [if_neg hintact] at hwhole ⊢
  by_cases hnumber : 15 < (lineHeaderOf f.payload).template.toNat
  · rw [if_pos hnumber]
    exact dropped (by rw [hwhole, templateNumber_eq_none.mpr hnumber, Option.elim_none])
  rw [if_neg hnumber]
  intro i p hi hp
  have hreason := lineDropReason_numbered hchannel hshort hintact hi.symm hp.symm
  dsimp only at hreason
  split_ifs at hreason ⊢ with hstate horder hlength
  · exact dropped hreason
  · exact dropped hreason
  · exact dropped hreason
  · have haccept := takeTemplateLine_accepts (rest := pre ++ post) hi.symm hp.symm hreason
    have hexec := exec_templateLineFrame hs hw htake
    rw [haccept] at hexec
    refine ⟨_, hexec, unchangedBut_finish (by simp) ((setFeed_frame s _).andThen (setTemplates_frame _ _) (by simp) (by simp)),
      announced_of (signs := []) rfl rfl, by simp, by simp, ?_⟩
    have hcount : (lineHeaderOf f.payload).count = (s.geo.planes.get p).width := not_not.mp (not_or.mp hlength).1
    simp only [finish_templates, State.setTemplates_templates, Option.mem_def, Option.some.injEq, exists_eq_left', rank_eq,
      templateBlock, areaPixel_packPixels, hcount, Nat.mod_eq_of_lt (areaPixel_lt _ _), implies_true, and_self]

end Sys2Proof.Machine
end

section
/-! # Queue Page and Mark (R92 to R94, R102, R103) -/

namespace Sys2Proof.Machine

/-! ### The mark table of the copy window (R102) -/

/-- The entry of a copy in the mark table of a window that holds it: the one it has, or the one a queued copy joins with. -/
def Composer.windowMark (c : Composer) (copy : Nat) : Option MarkEntry :=
  (c.markOf copy).or ((c.entryOf copy).map (freshMark copy))

theorem copy_of_windowMark {c : Composer} {copy : Nat} {m : MarkEntry} (h : c.windowMark copy = some m) : m.copy = copy := by
  rcases Option.or_eq_some_iff.mp h with h | ⟨-, h⟩
  · simpa using List.find?_some h
  · obtain ⟨e, -, rfl⟩ := Option.map_eq_some_iff.mp h
    rfl

theorem windowMarks_eq (c : Composer) : c.windowMarks = (List.range' c.copy 16).filterMap c.windowMark := by
  rw [List.range'_eq_map_range, List.filterMap_map]
  refine congrArg (fun g => (List.range 16).filterMap g) (funext fun i => ?_)
  simp only [Function.comp_apply, Composer.windowMark]
  split <;> simp [*]

/-- The mark found for a copy among those of a list of copies. -/
theorem find?_filterMap_marks {g : Nat → Option MarkEntry} (hg : ∀ {k m}, g k = some m → m.copy = k) (d : Nat) (ks : List Nat) :
    (ks.filterMap g).find? (fun m => m.copy == d) = if d ∈ ks then g d else none := by
  induction ks with
  | nil => rfl
  | cons k ks ih =>
    by_cases hd : k = d
    · subst hd
      cases hk : g k with
      | none => simp [List.filterMap_cons_none hk, ih, hk]
      | some m => simp [List.filterMap_cons_some hk, hg hk]
    · cases hk : g k with
      | none => simp [List.filterMap_cons_none hk, ih, Ne.symm hd]
      | some m => simp [List.filterMap_cons_some hk, ih, hg hk, hd, Ne.symm hd]

/-- A mark table brought to the copy window holds the window's copies that have an entry or join with one, and no other. -/
theorem markOf_slide (c : Composer) (d : Nat) :
    c.slide.markOf d = if c.copy ≤ d ∧ d ≤ c.copy + 15 then c.windowMark d else none := by
  change c.windowMarks.find? (fun m => m.copy == d) = _
  rw [windowMarks_eq, find?_filterMap_marks copy_of_windowMark]
  refine if_congr ?_ rfl rfl
  rw [List.mem_range'_1]
  omega

/-! ### Queue Page (R93, R94) -/

theorem namedTemplate_eq (b : Byte) : orNone templateNumber b
    = if 15 < b.toNat ∧ b ≠ 0xFF then none else some (allTemplates.find? (fun i => i.val == b.toNat)) := by
  revert b
  decide +kernel

theorem sourceOf_eq (b : Byte) : sourceOf b
    = if 4 < b.toNat then none else some ([Source.pd 0, .pd 1, .pd 2, .pd 3, .continuous].getD b.toNat .continuous) := by
  revert b
  decide +kernel

theorem patchedOf_eq (b : Byte) : patchedOf b = if 1 < b.toNat then none else some (decide (b ≠ 0)) := by
  revert b
  decide +kernel

theorem usable_eq_false_iff (t : TemplateStore) (i : Option TemplateIx) :
    t.usable i = false ↔ ∃ x ∈ i, (t.records.get x).state ≠ .complete := by
  cases i <;> simp [TemplateStore.usable]

/-- The page entry an accepted Queue Page appends (R94). -/
def queuedPage (c : Composer) (template : Byte) (copies length gap top : BitVec 16) (source patched : Byte) : PageEntry :=
  ⟨c.nextSequence, copies.toNat, c.nextSerial, length.toNat, gap.toNat, top.toNat,
    [Source.pd 0, .pd 1, .pd 2, .pd 3, .continuous].getD source.toNat .continuous,
    allTemplates.find? (fun i => i.val == template.toNat), decide (patched ≠ 0)⟩

/-- The Composer once an accepted page has joined its queue (R94, R102). -/
def Composer.withPage (c : Composer) (e : PageEntry) : Composer :=
  Composer.slide { c with
    pages := c.pages ++ [e], nextSequence := c.nextSequence + e.copies, nextSerial := c.nextSerial + e.copies * e.length }

/-- The range test of the fields of a Queue Page (R93 test 1). -/
abbrev pageOutOfRange (template : Byte) (copies length : BitVec 16) (source patched : Byte) : Prop :=
  copies.toNat = 0 ∨ length.toNat = 0 ∨ (15 < template.toNat ∧ template ≠ 0xFF) ∨ 4 < source.toNat ∨ 1 < patched.toNat

section
variable {template : Byte} {copies length gap top : BitVec 16} {source patched : Byte} {s : State}

theorem ownQueuePage_range (h : pageOutOfRange template copies length source patched) :
    ownQueuePage template copies length gap top source patched s = (s, .plain .range) := by
  simp only [ownQueuePage, namedTemplate_eq, sourceOf_eq, patchedOf_eq]
  split
  · next ht hsrc hpat =>
    split_ifs at ht hsrc hpat
    exact if_pos (by tauto)
  · rfl

/-- Queue Page with its fields in range, test by test (R93, R94). -/
theorem ownQueuePage_inRange (h : ¬pageOutOfRange template copies length source patched) :
    let c := s.composer
    let e := queuedPage c template copies length gap top source patched
    ownQueuePage template copies length gap top source patched s =
      if s.job.state = .stopping ∨ s.job.state = .halted then (s, .plain .state)
      else if 32 ≤ c.pages.length then (s, .plain .full)
      else if ∃ i ∈ e.template, (s.templates.records.get i).state ≠ .complete then (s, .plain .state)
      else if 4294967295 < c.nextSequence + copies.toNat ∨ 281474976710655 < c.nextSerial + copies.toNat * length.toNat then
        (s, .plain .range)
      else (s.setComposer (c.withPage e), ⟨.done, leBytes 4 c.nextSequence ++ leBytes 6 c.nextSerial⟩) := by
  obtain ⟨hcopies, hlength, ht, hsource, hpatched⟩ := by simpa only [not_or] using h
  simp only [ownQueuePage, namedTemplate_eq, sourceOf_eq, patchedOf_eq, if_neg ht, if_neg hsource, if_neg hpatched,
    if_neg (not_or.mpr ⟨hcopies, hlength⟩), usable_eq_false_iff]
  rfl

end

/-- Settles O20: the tests of R93 in order, and the page that joins the queue with its copies in the mark table. -/
theorem queuePageResult : Obligations.QueuePageResult := by
  intro tag template copies length gap top source patched s hs
  have refuses := fun {x} (own : ownQueuePage template copies length gap top source patched s = (s, .plain x)) =>
    exec_refused (tag := tag) (r := .queuePage template copies length gap top source patched) hs rfl own (.inr rfl)
  dsimp only
  by_cases hout : pageOutOfRange template copies length source patched
  · simp only [if_pos hout]
    exact refuses (ownQueuePage_range hout)
  simp only [if_neg hout]
  have own := ownQueuePage_inRange (gap := gap) (top := top) (s := s) hout
  dsimp only [queuedPage] at own
  split_ifs at own ⊢
  · exact refuses own
  · exact refuses own
  · exact refuses own
  · exact refuses own
  · refine ⟨_, exec_answered (r := .queuePage template copies length gap top source patched) hs rfl own (.inr rfl),
      unchangedBut_reply _ _ _ (by simp) ((setComposer_frame s _).mono (by simp)), answered_of rfl rfl, ?_⟩
    simp only [finish_composer, placeReply_composer, State.setComposer_composer]
    refine ⟨rfl, rfl, rfl, rfl, rfl, rfl, fun copy hlow hhigh => ?_⟩
    rw [Composer.withPage, markOf_slide, if_pos ⟨hlow, hhigh⟩]
    change (s.composer.markOf copy).or _ = _
    cases s.composer.markOf copy <;> rfl

/-! ### Mark (R103) -/

/-- The Composer with the mark of a copy raised to a value above it. -/
def Composer.raiseMark (c : Composer) (copy value : Nat) : Composer :=
  c.updMark copy fun m => { m with mark := max m.mark value }

theorem markOf_raiseMark (c : Composer) (copy value d : Nat) : (c.raiseMark copy value).markOf d
    = (c.markOf d).map fun m => if d = copy then { m with mark := max m.mark value } else m :=
  markOf_updMark c copy d fun _ => rfl

/-- Mark, test by test (R103). -/
theorem ownMark_eq (copy : BitVec 32) (value : BitVec 16) (s : State) :
    let c := s.composer
    ownMark copy value s =
      if c.nextSequence ≤ copy.toNat ∨ c.copy + 15 < copy.toNat then (s, .plain .ahead)
      else if copy.toNat < c.copy then (s, ⟨.done, [1, 0, 0, 0, 0, 0, 0]⟩)
      else if c.lengthOf copy.toNat < value.toNat then (s, .plain .range)
      else (s.setComposer (c.raiseMark copy.toNat value.toNat),
        ((c.raiseMark copy.toNat value.toNat).markOf copy.toNat).elim ⟨.done, markBody false 0 0⟩
          fun m => ⟨.done, markBody false m.mark m.accepted.toNat⟩) := by
  simp only [ownMark, Composer.raiseMark]
  cases Composer.markOf (Composer.updMark ..) copy.toNat <;> rfl

/-- Settles O21: the tests of R103 in order, and the mark raised. -/
theorem markResult : Obligations.MarkResult := by
  intro tag copy value s hs
  have own := ownMark_eq copy value s
  have answers := fun {u a} (own : ownMark copy value s = (u, a)) =>
    exec_answered (tag := tag) (r := .mark copy value) hs rfl own (.inr rfl)
  dsimp only at own ⊢
  split_ifs at own ⊢
  · exact ⟨_, answers own, refused_of rfl⟩
  · exact ⟨_, answers own, unchangedBut_reply _ _ _ (by simp) (unchangedBut_refl _ s), answered_of rfl rfl⟩
  · exact ⟨_, answers own, refused_of rfl⟩
  · refine ⟨_, answers own, fun m hm => ?_⟩
    have hraised : (s.composer.raiseMark copy.toNat value.toNat).markOf copy.toNat
        = some { m with mark := max m.mark value.toNat } := by
      rw [markOf_raiseMark, hm, Option.map_some, if_pos rfl]
    rw [hraised, Option.elim_some]
    refine ⟨unchangedBut_reply _ _ _ (by simp) ((setComposer_frame s _).mono (by simp)), answered_of rfl rfl, ?_⟩
    simp only [finish_composer, placeReply_composer, State.setComposer_composer]
    refine ⟨rfl, hraised, fun d hd => ?_⟩
    simp only [markOf_raiseMark, if_neg hd, Option.map_id']

end Sys2Proof.Machine
end

section
/-! # Patch frames (R96 to R99) -/

namespace Sys2Proof.Machine

/-! ### The frame taken and its slot (R96, R97) -/

theorem exec_patchFrame {s : State} {ch : DataCh} {f : DataFrame} {rest : List DataFrame} (hs : awake s)
    (hw : s.pool.writing = none) (ht : takeFrame true ch s.feed.awaiting = some (f, rest)) :
    exec (.patchFrame ch) s = .next (finish (takePatch f rest s)) := by
  change execPatchFrame ch s = _
  rw [execPatchFrame, ht]
  exact act_of_can (by simp [hw]) hs

theorem held_iff {q : PatchPool} (hw : q.writing = none) (j : Nat) : q.held j = true ↔ ∃ y ∈ q.index, y.slot = j := by
  simp [PatchPool.held, PatchPool.heldSlots, hw]

/-- With no slot being written, the slot taken is the lowest that no index entry holds. -/
theorem freeSlot_eq_some {s : State} {slot : Nat} (hw : s.pool.writing = none) (hlt : slot < s.memory.slots)
    (hfree : ∀ y ∈ s.pool.index, y.slot ≠ slot) (hlow : ∀ j < slot, ∃ y ∈ s.pool.index, y.slot = j) :
    s.freeSlot = some slot := by
  refine find?_eq_some_of_least List.pairwise_lt_range (List.mem_range.mpr hlt) ?_ fun j _ hj => ?_
  · simpa [Bool.eq_false_iff, held_iff hw] using hfree
  · simpa [held_iff hw] using hlow j hj

/-! ### The drop tests in order (R97) -/

theorem begun_iff (c : Composer) (copy line : Nat) : c.begun copy line = true ↔
    copy < c.copy ∨ (copy = c.copy ∧ (line < c.line ∨ (line = c.line ∧ c.flight ≠ none))) := by
  simp [Composer.begun, Option.isSome_iff_ne_none]

theorem configured_eq_false_iff (g : Geometry) (p : Plane) : g.configured p = false ↔ (g.planes.get p).width = 0 := by
  rw [Bool.eq_false_iff, ne_eq, configured_iff, not_not]

theorem patchModeOf_eq (b : Byte) :
    patchModeOf b = if 1 < b.toNat then none else some (if b = 0 then .replace else .overlay) := by
  revert b
  decide +kernel

/-- Test 6 of R97: the fields of a patch for a copy of page entry `e` on plane `p` that lie outside their ranges. -/
abbrev patchOutOfRange (s : State) (x : PatchHeader) (e : PageEntry) (p : Plane) : Prop :=
  e.length ≤ x.line ∨ (s.geo.planes.get p).width = 0 ∨ 1 < x.mode.toNat ∨ 16383 < x.first
    ∨ (s.geo.planes.get p).width ≤ x.first ∨ e.patched = false

section
variable {s : State} {f : DataFrame}

/-- Test 1 of R97, of the channel's state and of the plane, where the payload holds one. -/
abbrev patchOffChannel (s : State) (f : DataFrame) : Prop :=
  (s.feed.channels.get f.channel).state ≠ .opened
    ∨ (12 ≤ f.payload.length ∧ (s.feed.channels.get f.channel).planes.getLsbD (patchHeaderOf f.payload).plane.toNat = false)

theorem patchDropReason_channel (h : patchOffChannel s f) : patchDropReason s f = some .channel := by
  unfold patchDropReason
  by_cases hshort : f.payload.length < 12
  · simp only [if_pos hshort, if_pos (h.resolve_right fun hr => by omega)]
  · simp only [if_neg hshort]
    exact if_pos (h.imp_right fun hr => hr.2)

theorem patchDropReason_short (h : ¬patchOffChannel s f) (hshort : f.payload.length < 12) :
    patchDropReason s f = some .length := by
  unfold patchDropReason
  simp only [if_pos hshort, if_neg (not_or.mp h).1]

/-- A frame that passes test 1 with its fixed part whole, by the tests behind it. -/
theorem patchDropReason_whole (h : ¬patchOffChannel s f) (hwhole : ¬f.payload.length < 12) :
    let x := patchHeaderOf f.payload
    let c := s.composer
    patchDropReason s f = if f.intact = false then some .payload
      else if f.payload.length ≠ 12 + (x.count + 3) / 4 then some .length
      else if c.nextSequence ≤ x.copy ∨ c.copy + 15 < x.copy then some .ahead
      else if x.copy < c.copy ∨ (x.copy = c.copy ∧ (x.line < c.line ∨ (x.line = c.line ∧ c.flight ≠ none))) then some .late
      else (c.entryOf x.copy).elim (some .range) fun e => (planeNumber x.plane).elim (some .range) fun p =>
        if patchOutOfRange s x e p then some .range else none := by
  obtain ⟨hopen, hplane⟩ := not_or.mp h
  have hchannel : ¬((s.feed.channels.get f.channel).state ≠ .opened
      ∨ inPlaneSet (s.feed.channels.get f.channel).planes (patchHeaderOf f.payload).plane = false) :=
    not_or.mpr ⟨hopen, fun e => hplane ⟨by omega, e⟩⟩
  simp only [patchDropReason, if_neg hwhole, if_neg hchannel, begun_iff, or_self_left, patchModeOf_eq]
  refine if_congr Iff.rfl rfl (if_congr Iff.rfl rfl (if_congr Iff.rfl rfl (if_congr Iff.rfl rfl ?_)))
  cases s.composer.entryOf (patchHeaderOf f.payload).copy with
  | none => rfl
  | some e =>
    cases planeNumber (patchHeaderOf f.payload).plane with
    | none => rfl
    | some p =>
      by_cases hmode : 1 < (patchHeaderOf f.payload).mode.toNat
      · simp [patchOutOfRange, hmode]
      · simp only [Option.elim_some, patchOutOfRange, configured_eq_false_iff, hmode, false_or, ← ite_or, or_assoc]
        rfl

end

/-- A frame that a test meets is dropped for its reason, and one that passes goes on to the tests behind it. -/
theorem test_dropped {met rest : Prop} [Decidable met] {x y : Option DropReason} {reason : DropReason}
    {dropped : DropReason → Prop} (hx : x = if met then some reason else y) (hdrop : ∀ {r}, x = some r → dropped r)
    (hrest : ¬met → x = y → rest) : if met then dropped reason else rest := by
  split_ifs at hx ⊢ with h
  · exact hdrop hx
  · exact hrest h hx

/-! ### A patch dropped, and a patch accepted -/

section
variable {s : State} {ch : DataCh} {f : DataFrame} {rest : List DataFrame}

/-- R99: a dropped patch on the link. -/
theorem patch_dropped (hs : awake s) (hw : s.pool.writing = none) (ht : takeFrame true ch s.feed.awaiting = some (f, rest))
    {r : DropReason} (hr : patchDropReason s f = some r) :
    ∃ t : State, exec (.patchFrame ch) s = .next t ∧ unchangedBut [.counters, .feed] s t
      ∧ announced [.count .patchesDropped, .notice (.patchDropped (.patch (patchHeaderOf f.payload).plane
          (.ofNat 32 (patchHeaderOf f.payload).copy) (.ofNat 16 (patchHeaderOf f.payload).line)) r)]
        { s with feed := { s.feed with awaiting := rest } } t := by
  have hdrop : takePatch f rest s = dropPatch f r (s.setFeed { s.feed with awaiting := rest }) := by
    have hr : patchDropReason (s.setFeed { s.feed with awaiting := rest }) f = some r := hr
    simp only [takePatch, hr]
  refine ⟨_, exec_patchFrame hs hw ht, unchangedBut_finish (by simp) ?_, announced_of ?_ ?_⟩ <;> rw [hdrop]
  · exact (setFeed_frame s _).andThen (dropPatch_frame f r _) (by simp) (List.Subset.refl _)
  · rfl
  · rfl

/-- R98 step 2: the slot holds the patch's pixels in its columns, and level 0 in every other. -/
theorem areaPixel_slotBytes (first count : Nat) (area : List Byte) (col : Nat) :
    areaPixel (slotBytes first count area) col
      = if first ≤ col ∧ col < first + count then areaPixel area (col - first) else 0 := by
  rw [slotBytes, areaPixel_packPixels]
  by_cases hlow : first ≤ col
  · simp only [hlow, if_true, Nat.mod_eq_of_lt (areaPixel_lt _ _), true_and]
  · simp [hlow]

/-- The write of an accepted patch (R98): the patch clipped to the width, in the slot it takes. -/
def patchWriteOf (f : DataFrame) (width slot : Nat) (p : Plane) : PatchWrite :=
  let x := patchHeaderOf f.payload
  let count := min x.count (width - x.first)
  ⟨⟨x.copy, p, x.line, x.first, count, if x.mode = 0 then .replace else .overlay, slot, f.channel⟩,
    slotBytes x.first count (f.payload.drop 12)⟩

/-- R97, R98: a patch that no test drops is clipped to the width, takes the free slot, and its write begins. -/
theorem takePatch_accepts {p : Plane} {slot : Nat} (hp : (patchHeaderOf f.payload).plane.toNat = p.val)
    (hmode : ¬1 < (patchHeaderOf f.payload).mode.toNat) (hfirst : (patchHeaderOf f.payload).first < (s.geo.planes.get p).width)
    (hr : patchDropReason s f = none) (hslot : s.freeSlot = some slot) :
    let width := (s.geo.planes.get p).width
    takePatch f rest s = (tell
        (if width < (patchHeaderOf f.payload).first + (patchHeaderOf f.payload).count then [.count .patchesClipped] else [])
        (s.setFeed { s.feed with awaiting := rest })).setPool { s.pool with writing := some (patchWriteOf f width slot p) } := by
  have hr : patchDropReason (s.setFeed { s.feed with awaiting := rest }) f = none := hr
  have hslot : (s.setFeed { s.feed with awaiting := rest }).freeSlot = some slot := hslot
  have hclip : min (patchHeaderOf f.payload).count ((s.geo.planes.get p).width - (patchHeaderOf f.payload).first)
        < (patchHeaderOf f.payload).count
      ↔ (s.geo.planes.get p).width < (patchHeaderOf f.payload).first + (patchHeaderOf f.payload).count := by omega
  simp only [takePatch, hr, hslot, beginPatchWrite, planeNumber_eq_some.mpr hp, patchModeOf_eq, if_neg hmode, State.setFeed_geo,
    hclip]
  split
  · simp only [bump_pool]
    rfl
  · rfl

end

/-- Settles O44: the drop tests of R97 in order, and the write of a patch that passes them. -/
theorem patchFrameResult : Obligations.PatchFrameResult := by
  intro ch pre post f s hs hw hawait hkind hc hpre
  have htake : takeFrame true ch s.feed.awaiting = some (f, pre ++ post) := hawait ▸ takeFrame_append hkind hc hpre
  have dropped := fun {r} => patch_dropped (r := r) hs hw htake
  subst hc
  dsimp only
  by_cases hchannel : patchOffChannel s f
  · rw [if_pos hchannel]
    exact dropped (patchDropReason_channel hchannel)
  rw [if_neg hchannel]
  by_cases hshort : f.payload.length < 12
  · rw [if_pos hshort]
    exact dropped (patchDropReason_short hchannel hshort)
  rw [if_neg hshort]
  have hreason := patchDropReason_whole hchannel hshort
  refine test_dropped hreason dropped fun _ hreason => test_dropped hreason dropped fun _ hreason =>
    test_dropped hreason dropped fun _ hreason => test_dropped hreason dropped fun _ hreason p e hp he => ?_
  rw [he, planeNumber_eq_some.mpr hp.symm, Option.elim_some, Option.elim_some] at hreason
  refine test_dropped hreason dropped fun hrange hreason slot hlt hfree hlow => ?_
  obtain ⟨-, -, hmode, -, hwidth, -⟩ := by simpa only [not_or] using hrange
  have haccept := takePatch_accepts (rest := pre ++ post) hp.symm hmode (not_le.mp hwidth) hreason
    (freeSlot_eq_some hw hlt hfree hlow)
  have hexec := exec_patchFrame hs hw htake
  rw [haccept] at hexec
  refine ⟨_, hexec, exec_patchFrame_frame hexec, announced_of rfl rfl, by simp, ?_⟩
  simp only [finish_pool, State.setPool_pool, Option.mem_def, Option.some.injEq, exists_eq_left']
  exact ⟨rfl, fun col _ => areaPixel_slotBytes ..⟩

end Sys2Proof.Machine
end

section
/-! # The compose line begins (R83, R104, R105, R114) -/

namespace Sys2Proof.Machine

/-- R83: the configured planes below `p`, in plane order, are as many as its rank. -/
theorem rank_eq_below (g : Geometry) (p : Plane) : g.rank p
    = ((allPlanes.filter (fun q => decide ((g.planes.get q).width ≠ 0))).filter (fun q => decide (q < p))).length := by
  rw [rank_eq, List.filter_filter]
  simp only [Bool.decide_and]

theorem configuredPlanes_eq (g : Geometry) :
    g.configuredPlanes = allPlanes.filter (fun p => decide ((g.planes.get p).width ≠ 0)) :=
  List.filter_congr fun p _ => by rw [Bool.eq_iff_iff, configured_iff, decide_eq_true_iff]

section
variable {s : State} {e : PageEntry}

/-- A copy with no template has no base line (R106 step 1). -/
theorem baseBlock_of_noTemplate (he : s.composer.entryOf s.composer.copy = some e) (ht : e.template = none) (p : Plane) :
    s.baseBlock p = none := by
  simp only [State.baseBlock, he, ht]

/-- The base of line L is the template's line L where the template is longer than L (R83, R106 step 1). -/
theorem baseBlock_of_template {i : TemplateIx} (he : s.composer.entryOf s.composer.copy = some e) (ht : e.template = some i)
    (p : Plane) : s.baseBlock p =
      if s.composer.line < (s.templates.records.get i).length then
        some (templateBlock s.geo (s.templates.records.get i) p s.composer.line) else none := by
  simp only [State.baseBlock, he, ht]

/-- None of the conditions of R104 holds of a queued line below its copy's mark, with room in every ring. -/
theorem composeBlock_eq_none {m : MarkEntry} (he : s.composer.entryOf s.composer.copy = some e)
    (hm : s.composer.markOf s.composer.copy = some m) (hline : s.composer.line < m.mark)
    (hroom : ∀ p ∈ s.geo.configuredPlanes, (s.rings.get p).entries.length < s.memory.depth p) :
    s.composeBlock = .none := by
  have hfull : s.geo.configuredPlanes.find? s.ringFull = none :=
    List.find?_eq_none.mpr fun p hp => by simpa [State.ringFull] using hroom p hp
  simp [State.composeBlock, he, hm, not_le.mpr hline, hfull]

theorem composeLineBusy_eq_false
    (h : ∀ w ∈ s.pool.writing, ¬(w.entry.copy = s.composer.copy ∧ w.entry.line = s.composer.line)) :
    s.composeLineBusy = false := by
  cases hw : s.pool.writing with
  | none => simp [State.composeLineBusy, hw]
  | some w => simpa [State.composeLineBusy, hw] using h w hw

/-- R105: what the beginning of the line fixes: the ring blocks of the configured planes and the patches of the line. -/
theorem beginLine_composer (s : State) : (beginLine s).composer = { s.composer with
    flight := some ⟨s.geo.configuredPlanes.map (fun p => (p, s.memory.ringBase p + (s.rings.get p).writePosition)),
      s.pool.index.filter (fun x => decide (x.copy = s.composer.copy ∧ x.line = s.composer.line
        ∧ x.plane ∈ s.geo.configuredPlanes))⟩ } := by
  have hpatches : s.pool.index.filter (fun x => x.copy == s.composer.copy && x.line == s.composer.line && s.geo.configured x.plane)
      = s.pool.index.filter (fun x => decide (x.copy = s.composer.copy ∧ x.line = s.composer.line
        ∧ x.plane ∈ s.geo.configuredPlanes)) :=
    List.filter_congr fun x _ => by
      rw [Bool.eq_iff_iff]
      simp [mem_configuredPlanes, configured_iff, and_assoc]
  simp only [beginLine, State.setComposer_composer, hpatches]
  rfl

theorem exec_composeBegin (hs : awake s) (hjob : s.job.state = .running) (hflight : s.composer.flight = none)
    (hblock : s.composeBlock = .none) (hbusy : s.composeLineBusy = false) :
    exec .composeBegin s = .next (finish (beginLine s)) :=
  act_of_can (by simp [State.canCompose, hjob, hflight, hblock, hbusy]) hs

end

end Sys2Proof.Machine
end

section
/-! # The composition of a line (R80, R106, R107, R115) -/

namespace Sys2Proof.Machine

/-! ### The words in error that reads meet (R80) -/

theorem errorSigns_eq (s : State) (block : Nat) (need : Nat → Bool) : errorSigns s block need
    = (s.memory.errors.filter (fun e => wordInBlock block e.1 && need (e.1 - firstWord block))).map
        (fun e => .count (if e.2 = .single then .correctedWords else .uncorrectableWords)) := by
  refine congrArg (List.map _) (List.filter_congr fun e _ => ?_)
  have hin : decide (512 * block ≤ e.1 ∧ e.1 < 512 * (block + 1)) = wordInBlock block e.1 :=
    decide_eq_decide.mpr (by unfold firstWord Config.blockWords; omega)
  rw [hin, firstWord, Config.blockWords, mul_comm 512]

/-- The reads of a block announce the counts of its words in error. -/
theorem countReads_eq (block : Nat) (need : Nat → Bool) (s : State) :
    countReads block need s = tell (errorSigns s block need) s := by
  have hfold : ∀ (es : List (Nat × WordError)) (u : State),
      es.foldl (fun s e => match e.2 with | .single => bump .correctedWords s | .double => bump .uncorrectableWords s) u
        = tell (es.map fun e => .count (if e.2 = .single then .correctedWords else .uncorrectableWords)) u := by
    intro es
    induction es with
    | nil => exact fun _ => rfl
    | cons e es ih =>
      obtain ⟨w, x⟩ := e
      cases x <;> exact fun u => ih _
  rw [errorSigns_eq]
  exact hfold _ s

/-- A read meets the same words in error where the memory lists the same ones. -/
theorem errorSigns_congr {s t : State} (h : t.memory.errors = s.memory.errors) (block : Nat) (need : Nat → Bool) :
    errorSigns t block need = errorSigns s block need := by
  rw [errorSigns, errorSigns, h]

/-- A block write leaves the words in error of every other block. -/
theorem errorSigns_writeBlock {s t : State} {block : Nat} {bytes : List Byte} (h : t.memory = s.memory.writeBlock block bytes)
    {b : Nat} (hb : b ≠ block) (need : Nat → Bool) : errorSigns t b need = errorSigns s b need := by
  rw [errorSigns_eq, errorSigns_eq, h, FrameMemory.writeBlock, List.filter_filter]
  refine congrArg (List.map _) (List.filter_congr fun e _ => ?_)
  cases hin : wordInBlock b e.1 with
  | false => rfl
  | true =>
    have hout : wordInBlock block e.1 = false :=
      Bool.eq_false_iff.mpr fun hblock => hb ((wordInBlock_iff.mp hin).symm.trans (wordInBlock_iff.mp hblock))
    simp [hout]

/-! ### The memory between two writes (R77) -/

theorem memoryKeptBut.trans {as bs : List Nat} {s t u : State} (h : memoryKeptBut as s t) (h' : memoryKeptBut bs t u) :
    memoryKeptBut (as ++ bs) s u := by
  obtain ⟨hbyte, herror, hplan⟩ := h
  obtain ⟨hbyte', herror', hplan'⟩ := h'
  refine ⟨fun a ha => ?_, fun w hw => ?_, hplan'.trans hplan⟩
  · rw [List.mem_append, not_or] at ha
    exact (hbyte' a ha.2).trans (hbyte a ha.1)
  · rw [List.mem_append, not_or] at hw
    exact (herror' w hw.2).trans (herror w hw.1)

/-- A block outside the blocks written is read as it was. -/
theorem memoryKeptBut.pixel {bs : List Nat} {s t : State} (h : memoryKeptBut bs s t) {block col : Nat} (hb : block ∉ bs)
    (hcol : col < 16384) : t.memory.pixel block col = s.memory.pixel block col := by
  obtain ⟨hbyte, herror, -⟩ := h
  have hword : (firstWord block + col / 32) / 512 = block := by unfold firstWord Config.blockWords; omega
  have haddress : (block * Config.blockBytes + col / 4) / 4096 = block := by unfold Config.blockBytes; omega
  rw [FrameMemory.pixel, FrameMemory.pixel, herror _ (by rwa [hword]), hbyte _ (by rwa [haddress])]

theorem depth_congr {m n : FrameMemory} (h : n.plan = m.plan) (p : Plane) : n.depth p = m.depth p := by
  rw [FrameMemory.depth, FrameMemory.depth, h]

theorem pixel_lt (m : FrameMemory) (block col : Nat) : m.pixel block col < 4 := by
  unfold FrameMemory.pixel
  split
  · decide
  · exact Nat.mod_lt _ (by decide)

/-! ### The composed pixel (R106) -/

/-- R106: the patches of a plane laid one after another over its base line. -/
theorem composedPixel_eq (s : State) (f : Composition) (p : Plane) (col : Nat) : s.composedPixel f p col
    = (f.patches.filter (fun x => x.plane == p)).foldl
        (fun v x => if x.first ≤ col ∧ col < x.first + x.count then
          (if x.mode = .replace then s.memory.pixel x.slot col else max v (s.memory.pixel x.slot col)) else v)
        ((s.baseBlock p).elim 0 fun b => s.memory.pixel b col) := by
  have hlay : applyPatch s.memory col = fun v x => if x.first ≤ col ∧ col < x.first + x.count then
      (if x.mode = .replace then s.memory.pixel x.slot col else max v (s.memory.pixel x.slot col)) else v := by
    funext v x
    rw [applyPatch]
    cases x.mode <;> rfl
  rw [State.composedPixel, hlay]
  cases s.baseBlock p <;> rfl

theorem applyPatch_lt (m : FrameMemory) (col : Nat) {v : Nat} (hv : v < 4) (x : PatchEntry) : applyPatch m col v x < 4 := by
  have hpixel := pixel_lt m x.slot col
  unfold applyPatch
  split
  · split
    · exact hpixel
    · exact max_lt hv hpixel
  · exact hv

theorem composedPixel_lt (s : State) (f : Composition) (p : Plane) (col : Nat) : s.composedPixel f p col < 4 := by
  have hfold : ∀ (xs : List PatchEntry) (v : Nat), v < 4 → xs.foldl (applyPatch s.memory col) v < 4 := by
    intro xs
    induction xs with
    | nil => exact fun _ hv => hv
    | cons x xs ih => exact fun v hv => ih _ (applyPatch_lt _ _ hv x)
  refine hfold _ _ ?_
  split
  · exact pixel_lt ..
  · decide

theorem baseBlock_of_frame {bs : List Block} {s t : State} (h : unchangedBut bs s t) (hg : .geo ∉ bs) (ht : .templates ∉ bs)
    (hc : .composer ∉ bs) (p : Plane) : t.baseBlock p = s.baseBlock p := by
  have hgeo : t.geo = s.geo := h .geo hg
  have htemplates : t.templates = s.templates := h .templates ht
  have hcomposer : t.composer = s.composer := h .composer hc
  rw [State.baseBlock, State.baseBlock, hgeo, htemplates, hcomposer]

/-- The composed pixel is read from the base line and the slots of the patches alone. -/
theorem composedPixel_congr {s t : State} {f : Composition} {p : Plane} {col : Nat} (hbase : t.baseBlock p = s.baseBlock p)
    (hline : ∀ b ∈ s.baseBlock p, t.memory.pixel b col = s.memory.pixel b col)
    (hslots : ∀ x ∈ f.patches, t.memory.pixel x.slot col = s.memory.pixel x.slot col) :
    t.composedPixel f p col = s.composedPixel f p col := by
  have hfold : ∀ (xs : List PatchEntry), xs ⊆ f.patches → ∀ v : Nat,
      xs.foldl (applyPatch t.memory col) v = xs.foldl (applyPatch s.memory col) v := by
    intro xs
    induction xs with
    | nil => exact fun _ _ => rfl
    | cons x xs ih =>
      intro hsub v
      obtain ⟨hx, hxs⟩ := List.cons_subset.mp hsub
      have hstep : applyPatch t.memory col v x = applyPatch s.memory col v x := by
        rw [applyPatch, applyPatch, hslots x hx]
      rw [List.foldl_cons, List.foldl_cons, hstep, ih hxs]
  rw [State.composedPixel, State.composedPixel, hfold _ ((List.filter_subset_self _)), hbase]
  congr 1
  cases hb : s.baseBlock p with
  | none => rfl
  | some b => exact hline b hb

/-! ### Announcements one after another -/

/-- The link and the counters are those that the announcements `signs` leave. -/
abbrev tells (signs : List Sign) (s t : State) : Prop :=
  t.feed = (tell signs s).feed ∧ t.counters = (tell signs s).counters

theorem tells.trans {xs ys : List Sign} {s t u : State} (h : tells xs s t) (h' : tells ys t u) : tells (xs ++ ys) s u := by
  obtain ⟨hfeed, hcounters⟩ := tell_congr ys h.1 h.2
  exact ⟨by rw [tell_append, h'.1, hfeed], by rw [tell_append, h'.2, hcounters]⟩

/-! ### One line written (R80, R106) -/

/-- The words in error that the composition of plane `p` reads, counted: those of its base line and of each of its patches. -/
def composeSigns (f : Composition) (s : State) (p : Plane) : List Sign :=
  (s.baseBlock p).toList.flatMap (fun b => errorSigns s b (fun _ => true))
    ++ (f.patches.filter (fun x => x.plane == p)).flatMap (fun y => errorSigns s y.slot (fun _ => true))

theorem countComposeReads_eq (f : Composition) (p : Plane) (s : State) :
    countComposeReads f p s = tell (composeSigns f s p) s := by
  have hfold : ∀ (xs : List PatchEntry) (u : State), u.memory.errors = s.memory.errors →
      xs.foldl (fun s x => countReads x.slot (fun _ => true) s) u
        = tell (xs.flatMap fun y => errorSigns s y.slot (fun _ => true)) u := by
    intro xs
    induction xs with
    | nil => exact fun _ _ => rfl
    | cons x xs ih =>
      intro u hu
      rw [List.foldl_cons, List.flatMap_cons, tell_append, ← errorSigns_congr hu, ← countReads_eq]
      exact ih _ (by rw [show (countReads x.slot (fun _ => true) u).memory = u.memory from
        countReads_frame _ _ u .memory (by simp), hu])
  have hbase : countComposeReads f p s = (f.patches.filter (fun x => x.plane == p)).foldl
      (fun s x => countReads x.slot (fun _ => true) s)
      (tell ((s.baseBlock p).toList.flatMap (fun b => errorSigns s b (fun _ => true))) s) := by
    unfold countComposeReads
    cases s.baseBlock p with
    | none => rfl
    | some b => rw [Option.toList_some, List.flatMap_singleton, ← countReads_eq]
  rw [hbase, composeSigns, tell_append]
  exact hfold _ _ (by rw [(tell_keeps _ s).outside])

theorem writeLine_eq (f : Composition) (s : State) (x : Plane × Nat) : writeLine f s x
    = (tell (composeSigns f s x.1) s).setMemory
        (s.memory.writeBlock x.2 (packPixels (s.geo.planes.get x.1).width (s.composedPixel f x.1))) := by
  rw [writeLine, countComposeReads_eq]
  have hkeeps := (tell_keeps (composeSigns f s x.1) s).outside
  rw [hkeeps]
  rfl

/-! ### The lines of every plane written (R106) -/

/-- No block that the composition reads is one that it writes. -/
def blocksApart (f : Composition) (targets : List (Plane × Nat)) (s : State) : Prop :=
  ∀ x ∈ targets, (∀ y ∈ f.patches, y.slot ≠ x.2) ∧ ∀ y ∈ targets, s.baseBlock y.1 ≠ some x.2

/-- What the writes of a list of lines do, all of them composed from the memory before the first. -/
structure LinesWritten (f : Composition) (targets : List (Plane × Nat)) (s t : State) : Prop where
  frame : unchangedBut [.memory, .counters, .feed] s t
  signs : tells (targets.flatMap fun x => composeSigns f s x.1) s t
  pixels : ∀ x ∈ targets, ∀ col < 16384, t.memory.pixel x.2 col
    = if col < (s.geo.planes.get x.1).width then s.composedPixel f x.1 col else 0
  kept : memoryKeptBut (targets.map (·.2)) s t

theorem LinesWritten.plan {f : Composition} {targets : List (Plane × Nat)} {s t : State} (h : LinesWritten f targets s t) :
    t.memory.plan = s.memory.plan := by
  obtain ⟨-, -, hplan⟩ := h.kept
  exact hplan

section
variable {f : Composition} {s : State} {x : Plane × Nat}

theorem writeLine_memory : (writeLine f s x).memory
    = s.memory.writeBlock x.2 (packPixels (s.geo.planes.get x.1).width (s.composedPixel f x.1)) := by
  rw [writeLine_eq, State.setMemory_memory]

theorem writeLine_baseBlock (p : Plane) : (writeLine f s x).baseBlock p = s.baseBlock p :=
  baseBlock_of_frame (writeLine_frame f s x) (by simp) (by simp) (by simp) p

/-- The line written reads back as composed, and as level 0 beyond the width. -/
theorem writeLine_pixel {col : Nat} (hcol : col < 16384) : (writeLine f s x).memory.pixel x.2 col
    = if col < (s.geo.planes.get x.1).width then s.composedPixel f x.1 col else 0 := by
  rw [writeLine_memory, FrameMemory.pixel_writeBlock _ _ _ hcol, areaPixel_packPixels, Nat.mod_eq_of_lt (composedPixel_lt ..)]

/-- A line written to a block of its own leaves what another line of the composition is composed from. -/
theorem writeLine_composedPixel (hslots : ∀ y ∈ f.patches, y.slot ≠ x.2) {p : Plane} (hbase : s.baseBlock p ≠ some x.2) {col : Nat}
    (hcol : col < 16384) : (writeLine f s x).composedPixel f p col = s.composedPixel f p col := by
  have hkept := memoryKeptBut_writeBlock (writeLine_memory (f := f) (s := s) (x := x))
  refine composedPixel_congr (writeLine_baseBlock p) (fun b hb => ?_) fun y hy => ?_
  · exact hkept.pixel (by rw [List.mem_singleton]; exact fun h => hbase (h ▸ hb)) hcol
  · exact hkept.pixel (by rw [List.mem_singleton]; exact hslots y hy) hcol

theorem writeLine_composeSigns (hslots : ∀ y ∈ f.patches, y.slot ≠ x.2) {p : Plane} (hbase : s.baseBlock p ≠ some x.2) :
    composeSigns f (writeLine f s x) p = composeSigns f s p := by
  rw [composeSigns, composeSigns, writeLine_baseBlock]
  refine congrArg₂ (· ++ ·) (List.flatMap_congr fun b hb => ?_) (List.flatMap_congr fun y hy => ?_)
  · refine errorSigns_writeBlock writeLine_memory (fun h => hbase ?_) _
    rw [← h]
    exact Option.mem_toList.mp hb
  · exact errorSigns_writeBlock writeLine_memory (hslots y (List.mem_of_mem_filter hy)) _

end

/-- The lines are written one after another, each as composed before the first write (R106). -/
theorem linesWritten {f : Composition} {targets : List (Plane × Nat)} {s : State} (hapart : blocksApart f targets s)
    (hblocks : (targets.map (·.2)).Nodup) : LinesWritten f targets s (targets.foldl (writeLine f) s) := by
  induction targets generalizing s with
  | nil => exact ⟨unchangedBut_refl _ s, ⟨rfl, rfl⟩, by simp, fun _ _ => rfl, fun _ _ => rfl, rfl⟩
  | cons x xs ih =>
    obtain ⟨hx, hxs⟩ := List.nodup_cons.mp hblocks
    obtain ⟨hslots, hbases⟩ := hapart x (by simp)
    have hgeo : (writeLine f s x).geo = s.geo := writeLine_frame f s x .geo (by simp)
    have hrest : blocksApart f xs (writeLine f s x) := fun y hy => by
      obtain ⟨hyslots, hybases⟩ := hapart y (List.mem_cons_of_mem x hy)
      exact ⟨hyslots, fun z hz => by rw [writeLine_baseBlock]; exact hybases z (List.mem_cons_of_mem x hz)⟩
    have hlines := ih hrest hxs
    have hsigns : xs.flatMap (fun y => composeSigns f (writeLine f s x) y.1) = xs.flatMap fun y => composeSigns f s y.1 :=
      List.flatMap_congr fun y hy => writeLine_composeSigns hslots (hbases y (List.mem_cons_of_mem x hy))
    have hfirst : tells (composeSigns f s x.1) s (writeLine f s x) := by
      rw [writeLine_eq]
      exact ⟨rfl, rfl⟩
    refine ⟨unchangedBut_trans (writeLine_frame f s x) hlines.frame, ?_, fun y hy col hcol => ?_, ?_⟩
    · rw [List.flatMap_cons, ← hsigns]
      exact hfirst.trans hlines.signs
    · rw [List.foldl_cons]
      rcases List.mem_cons.mp hy with rfl | hmem
      · rw [hlines.kept.pixel hx hcol, writeLine_pixel hcol]
      · rw [hlines.pixels y hmem col hcol, hgeo, writeLine_composedPixel hslots (hbases y hy) hcol]
    · exact (memoryKeptBut_writeBlock writeLine_memory).trans hlines.kept

/-! ### The lines committed (R115) -/

/-- What the commit of a serial to the rings of a list of planes does: it joins a ring whose retire point lies below it, and is
counted late at another. -/
structure LinesCommitted (serial : Nat) (planes : List Plane) (s t : State) : Prop where
  frame : unchangedBut [.rings, .counters, .feed] s t
  signs : tells ((planes.filter fun p => decide ((serial : Int) ≤ (s.rings.get p).retire)).map fun p => .count (.lateLines p)) s t
  rings : ∀ p : Plane, t.rings.get p = if p ∈ planes ∧ ¬(serial : Int) ≤ (s.rings.get p).retire then
    (s.rings.get p).accept (s.memory.depth p) serial else s.rings.get p

section
variable {serial : Nat} {s : State} {x : Plane}

/-- R115: a commit at or below the retire point is late. -/
theorem commitTo_late (h : (serial : Int) ≤ (s.rings.get x).retire) : commitTo serial x s = bump (.lateLines x) s := by
  rw [commitTo, if_neg (not_lt.mpr h)]

/-- R115: a commit above the retire point is accepted. -/
theorem commitTo_accepted (h : ¬(serial : Int) ≤ (s.rings.get x).retire) :
    commitTo serial x s = s.updRing x fun g => g.accept (s.memory.depth x) serial := by
  rw [commitTo, if_pos (not_le.mp h)]

theorem commitTo_ring (p : Plane) : (commitTo serial x s).rings.get p =
    if p = x ∧ ¬(serial : Int) ≤ (s.rings.get p).retire then (s.rings.get p).accept (s.memory.depth p) serial
    else s.rings.get p := by
  by_cases hlate : (serial : Int) ≤ (s.rings.get x).retire
  · rw [commitTo_late hlate, bump_rings, if_neg]
    rintro ⟨rfl, hp⟩
    exact hp hlate
  · rw [commitTo_accepted hlate, State.updRing_rings, Table.get_upd]
    by_cases hp : p = x
    · subst hp
      rw [if_pos rfl, if_pos ⟨rfl, hlate⟩]
    · rw [if_neg (Ne.symm hp), if_neg fun h => hp h.1]

theorem commitTo_retire (p : Plane) : ((commitTo serial x s).rings.get p).retire = (s.rings.get p).retire := by
  rw [commitTo_ring]
  split <;> rfl

end

theorem linesCommitted (serial : Nat) {planes : List Plane} (s : State) (hplanes : planes.Nodup) :
    LinesCommitted serial planes s (planes.foldl (fun u p => commitTo serial p u) s) := by
  induction planes generalizing s with
  | nil => exact ⟨unchangedBut_refl _ s, ⟨rfl, rfl⟩, by simp⟩
  | cons x xs ih =>
    obtain ⟨hx, hxs⟩ := List.nodup_cons.mp hplanes
    obtain ⟨hframe, hsigns, hrings⟩ := ih (commitTo serial x s) hxs
    have hmemory : (commitTo serial x s).memory = s.memory := commitTo_frame serial x s .memory (by simp)
    simp only [commitTo_retire] at hsigns hrings
    refine ⟨unchangedBut_trans (commitTo_frame serial x s) hframe, ?_, fun p => ?_⟩
    · by_cases hlate : (serial : Int) ≤ (s.rings.get x).retire
      · rw [List.filter_cons_of_pos (by simpa using hlate), List.map_cons]
        exact tells.trans (xs := [.count (.lateLines x)]) (by rw [commitTo_late hlate]; exact ⟨rfl, rfl⟩) hsigns
      · rw [List.filter_cons_of_neg (by simpa using hlate)]
        exact tells.trans (xs := []) (by rw [commitTo_accepted hlate]; exact ⟨rfl, rfl⟩) hsigns
    · rw [List.foldl_cons, hrings, hmemory, commitTo_ring]
      by_cases hp : p = x
      · subst hp
        simp [hx]
      · simp [hp]

/-! ### The composition completes (R107) -/

theorem advance_eq {c : Composer} {e : PageEntry} (he : c.entryOf c.copy = some e) : c.advance =
    if e.length ≤ c.line + 1 then Composer.slide { c with copy := c.copy + 1, line := 0, flight := none }
    else { c with line := c.line + 1, flight := none } := by
  simp only [Composer.advance, Composer.lengthOf, he, ← not_le, ite_not]

/-- R107 step 3: the mark table once the compose position has moved to the next copy. -/
theorem markOf_advance {c : Composer} {e : PageEntry} (he : c.entryOf c.copy = some e) (hlast : e.length ≤ c.line + 1) (d : Nat) :
    c.advance.markOf d = if c.copy + 1 ≤ d ∧ d ≤ c.copy + 16 then c.windowMark d else none := by
  rw [advance_eq he, if_pos hlast, markOf_slide]
  exact if_congr (by dsimp only; omega) rfl rfl

theorem serial_eq {c : Composer} {e : PageEntry} (he : c.entryOf c.copy = some e) :
    c.serial = e.base + (c.copy - e.first) * e.length + c.line := by
  simp only [Composer.serial, he, PageEntry.baseOf]

/-- The commits of a composition carry the serial its line had when they began. -/
theorem foldl_commitTo (targets : List (Plane × Nat)) {serial : Nat} {s : State} (h : s.composer.serial = serial) :
    targets.foldl (fun u t => commitTo u.composer.serial t.1 u) s
      = (targets.map (·.1)).foldl (fun u p => commitTo serial p u) s := by
  induction targets generalizing s with
  | nil => rfl
  | cons x xs ih =>
    have hcomposer : (commitTo serial x.1 s).composer = s.composer := commitTo_frame serial x.1 s .composer (by simp)
    rw [List.foldl_cons, List.map_cons, List.foldl_cons, h, ih (by rw [hcomposer, h])]

/-- R107: the lines written, the lines committed, the slots freed and the compose position moved, one after another. -/
theorem completeComposition_steps {f : Composition} {s : State} (hapart : blocksApart f f.targets s)
    (hplanes : (f.targets.map (·.1)).Nodup) (hblocks : (f.targets.map (·.2)).Nodup) :
    ∃ u v : State, LinesWritten f f.targets s u ∧ LinesCommitted s.composer.serial (f.targets.map (·.1)) u v
      ∧ completeComposition f s = (v.setPool { s.pool with
          index := s.pool.index.filter (fun e => !f.patches.any (fun x => x.slot == e.slot)) }).setComposer s.composer.advance := by
  have hwritten := linesWritten hapart hblocks
  have hcommitted := linesCommitted s.composer.serial (f.targets.foldl (writeLine f) s) hplanes
  refine ⟨_, _, hwritten, hcommitted, ?_⟩
  have hcomposer : (f.targets.foldl (writeLine f) s).composer = s.composer := hwritten.frame .composer (by simp)
  have hpool : (f.targets.foldl (writeLine f) s).pool = s.pool := hwritten.frame .pool (by simp)
  simp only [completeComposition, foldl_commitTo f.targets (congrArg Composer.serial hcomposer), State.setPool_composer]
  rw [show State.composer (List.foldl ..) = _ from hcommitted.frame .composer (by simp),
    show State.pool (List.foldl ..) = _ from hcommitted.frame .pool (by simp), hcomposer, hpool]

theorem exec_compositionComplete {s : State} {f : Composition} (hs : awake s) (hf : s.composer.flight = some f)
    (hin : ∀ b ∈ s.composeBlocks f, b < 262144) :
    exec .compositionComplete s = .next (finish (completeComposition f s)) := by
  change execCompositionComplete s = _
  rw [execCompositionComplete, hf]
  exact actOn_of_inside hin hs

/-- R107: the entries left in the index are those in no slot of the patches applied. -/
theorem freedIndex_eq (index patches : List PatchEntry) : index.filter (fun x => !patches.any fun y => y.slot == x.slot)
    = index.filter fun x => decide (∀ y ∈ patches, y.slot ≠ x.slot) :=
  List.filter_congr fun x _ => by rw [Bool.eq_iff_iff, decide_eq_true_iff]; simp

/-- Settles O43: the base line, the beginning of the compose line, and the completion of its composition. -/
theorem compositionResults : Obligations.CompositionResults := by
  intro s hs
  dsimp only
  simp only [← configuredPlanes_eq]
  refine ⟨fun p e he => ⟨fun ht => baseBlock_of_noTemplate he ht p, fun i hi => ?_⟩,
    fun e m hjob hflight he hm hline hroom hbusy => ?_, fun f e _ hf he hplanes hblocks hin hapart => ?_⟩
  · rw [baseBlock_of_template he hi, templateBlock, rank_eq_below, configuredPlanes_eq]
  · refine ⟨_, exec_composeBegin hs hjob hflight (composeBlock_eq_none he hm hline hroom) (composeLineBusy_eq_false hbusy),
      unchangedBut_finish (by simp) ((setComposer_frame s _).mono (by simp)), announced_of (signs := []) rfl rfl, ?_⟩
    rw [finish_composer, beginLine_composer]
  · have hexec := exec_compositionComplete hs hf hin
    obtain ⟨u, v, hwritten, hcommitted, hcomplete⟩ := completeComposition_steps hapart hplanes hblocks
    have hserial := serial_eq he
    have hrings : u.rings = s.rings := hwritten.frame .rings (by simp)
    have hmemory : v.memory = u.memory := hcommitted.frame .memory (by simp)
    have hsigns := hwritten.signs.trans hcommitted.signs
    rw [hcomplete] at hexec
    rw [hserial, hrings] at hsigns
    refine ⟨_, hexec, (exec_compositionComplete_frame hexec).mono (by simp), ?_, ?_⟩
    · rw [List.filter_map, List.map_map] at hsigns
      exact announced_of hsigns.1 hsigns.2
    simp only [memoryKeptBut, finish_memory, finish_rings, finish_pool, finish_composer, State.setComposer_memory, State.setPool_memory,
      State.setComposer_rings, State.setPool_rings, State.setComposer_pool, State.setPool_pool, State.setComposer_composer, hmemory]
    refine ⟨fun x hx col hcol => ?_, hwritten.kept, fun p => ?_, ?_, ?_, fun hmore => ?_, fun hlast d => ?_⟩
    · rw [hwritten.pixels x hx col hcol, composedPixel_eq]
      cases s.baseBlock x.1 <;> rfl
    · rw [hcommitted.rings p, hrings, hserial, depth_congr hwritten.plan]
      exact if_congr (by rw [decide_eq_false_iff_not]) rfl rfl
    · rw [freedIndex_eq]
    · rw [advance_eq he]
      split <;> rfl
    · rw [advance_eq he, if_neg hmore]
    · rw [markOf_advance he hlast, Composer.windowMark]
      cases s.composer.markOf d <;> rfl

end Sys2Proof.Machine
end

section
/-! # Rows and arbiter queues in order (R130, R132)

A port whose rows and arbiter queue meet `portOk` and `joinsOk`, kept by each operation on one row: a row whose line goes on,
leaves or is queued. -/

namespace Sys2Proof.Machine

/-- `portOk` and `joinsOk` of one port. -/
structure HeadPort.InOrder (now : Nat) (q : HeadPort) : Prop where
  once : q.arbiter.Nodup
  lines : q.linesOk
  single : ∀ j k : RowIx, (q.rows.get j).load = .loading → (q.rows.get k).load = .loading → j = k
  sorted : q.arbiter.Pairwise (fun j k => (q.rows.get j).joined < (q.rows.get k).joined
    ∨ ((q.rows.get j).joined = (q.rows.get k).joined ∧ j < k))
  joined : ∀ k ∈ q.arbiter, (q.rows.get k).joined ≤ now

theorem rowsOk_iff {s : State} : rowsOk s ↔ ∀ h : Port, (s.ports.get h).InOrder s.now :=
  forall_congr' fun _ => ⟨fun ⟨⟨h1, h2, h3⟩, h4, h5⟩ => ⟨h1, h2, h3, h4, h5⟩,
    fun ⟨h1, h2, h3, h4, h5⟩ => ⟨⟨h1, h2, h3⟩, h4, h5⟩⟩

namespace HeadPort.InOrder

variable {now : Nat} {q : HeadPort}

/-- The order of a port reads of each row its load state, its line, its due time and when it joined the queue. -/
theorem congr {now' : Nat} {q' : HeadPort} (h : q.InOrder now) (hnow : now ≤ now') (harbiter : q'.arbiter = q.arbiter)
    (hrow : ∀ k : RowIx, (q'.rows.get k).load = (q.rows.get k).load ∧ (q'.rows.get k).line = (q.rows.get k).line
      ∧ (q'.rows.get k).due = (q.rows.get k).due ∧ (q'.rows.get k).joined = (q.rows.get k).joined) : q'.InOrder now' where
  once := harbiter ▸ h.once
  lines k := by
    obtain ⟨hload, hline, hdue, -⟩ := hrow k
    rw [harbiter, hload, hline, hdue]
    exact h.lines k
  single j k := by
    rw [(hrow j).1, (hrow k).1]
    exact h.single j k
  sorted := by
    rw [harbiter]
    refine h.sorted.imp fun {j k} hjk => ?_
    obtain ⟨-, -, -, hj⟩ := hrow j
    obtain ⟨-, -, -, hk⟩ := hrow k
    rw [hj, hk]
    exact hjk
  joined k hk := by
    obtain ⟨-, -, -, hjoined⟩ := hrow k
    rw [hjoined]
    exact (h.joined k (harbiter ▸ hk)).trans hnow

/-- A port every row of which is EMPTY, with no row queued (R141). -/
theorem ofEmpty (now : Nat) (harbiter : q.arbiter = []) (hrow : ∀ k : RowIx, (q.rows.get k).isEmpty) : q.InOrder now where
  once := harbiter ▸ List.nodup_nil
  lines k := by
    obtain ⟨hload, hline, hdue⟩ := hrow k
    simp [harbiter, hload, hline, hdue]
  single j _ hj := by
    obtain ⟨hload, -, -⟩ := hrow j
    rw [hload] at hj
    cases hj
  sorted := harbiter ▸ List.Pairwise.nil
  joined k hk := by
    rw [harbiter] at hk
    cases hk

/-- Row `k` replaced and at most taken out of the arbiter queue: the order stands if the new row is in order by itself, and is
LOADING only where no other is. -/
theorem replaceRow (h : q.InOrder now) (k : RowIx) {f : Row → Row} {a : List RowIx} (ha : a.Sublist q.arbiter)
    (hothers : ∀ j : RowIx, j ≠ k → j ∈ q.arbiter → j ∈ a) (hqueued : k ∈ a ↔ (f (q.rows.get k)).load = .queued)
    (hline : (f (q.rows.get k)).line.isSome ↔ (f (q.rows.get k)).load ≠ .empty)
    (hdue : (f (q.rows.get k)).due.isSome → (f (q.rows.get k)).line.isSome)
    (hjoined : (f (q.rows.get k)).joined = (q.rows.get k).joined)
    (hsingle : (f (q.rows.get k)).load = .loading → ∀ j : RowIx, j ≠ k → (q.rows.get j).load ≠ .loading) :
    HeadPort.InOrder now { q with rows := q.rows.upd k f, arbiter := a } := by
  have hself : (q.rows.upd k f).get k = f (q.rows.get k) := Table.get_upd_self _ _ _
  have hother : ∀ j, j ≠ k → (q.rows.upd k f).get j = q.rows.get j := fun j hj => Table.get_upd_ne _ _ (Ne.symm hj)
  have hjoins : ∀ j, ((q.rows.upd k f).get j).joined = (q.rows.get j).joined := fun j => by
    by_cases hj : j = k
    · subst hj
      rw [hself, hjoined]
    · rw [hother j hj]
  refine ⟨h.once.sublist ha, fun j => ?_, fun i j => ?_, ?_, fun j hj => ?_⟩
  · by_cases hj : j = k
    · subst hj
      rw [hself]
      exact ⟨hqueued, hline, hdue⟩
    · rw [hother j hj]
      obtain ⟨hin, hrest⟩ := h.lines j
      exact ⟨⟨fun hm => hin.mp (ha.subset hm), fun hl => hothers j hj (hin.mpr hl)⟩, hrest⟩
  · by_cases hi : i = k <;> by_cases hj : j = k
    · exact fun _ _ => hi.trans hj.symm
    · subst hi
      dsimp only
      rw [hself, hother j hj]
      exact fun hl hlj => absurd hlj (hsingle hl j hj)
    · subst hj
      dsimp only
      rw [hself, hother i hi]
      exact fun hli hl => absurd hli (hsingle hl i hi)
    · dsimp only
      rw [hother i hi, hother j hj]
      exact h.single i j
  · simp only [hjoins]
    exact h.sorted.sublist ha
  · simp only [hjoins]
    exact h.joined j (ha.subset hj)

/-- A row that gives up its line (R128, R134, R140). -/
theorem giveUpRow (h : q.InOrder now) (k : RowIx) {f : Row → Row} (hf : (f (q.rows.get k)).isEmpty)
    (hjoined : (f (q.rows.get k)).joined = (q.rows.get k).joined) : (q.giveUpRow k f).InOrder now := by
  obtain ⟨hload, hline, hdue⟩ := hf
  exact h.replaceRow k List.filter_sublist (fun j hj hm => List.mem_filter.mpr ⟨hm, by simpa using hj⟩)
    (by simp [hload]) (by simp [hline, hload]) (by simp [hdue]) hjoined (by simp [hload])

/-- A row that is not QUEUED changes within its line, or loses it without having been queued. -/
theorem updRow (h : q.InOrder now) (k : RowIx) {f : Row → Row} (hbefore : (q.rows.get k).load ≠ .queued)
    (hafter : (f (q.rows.get k)).load ≠ .queued)
    (hline : (f (q.rows.get k)).line.isSome ↔ (f (q.rows.get k)).load ≠ .empty)
    (hdue : (f (q.rows.get k)).due.isSome → (f (q.rows.get k)).line.isSome)
    (hjoined : (f (q.rows.get k)).joined = (q.rows.get k).joined)
    (hsingle : (f (q.rows.get k)).load = .loading → (q.rows.get k).load = .loading) :
    HeadPort.InOrder now { q with rows := q.rows.upd k f } := by
  have hout : k ∉ q.arbiter := fun hm => hbefore ((h.lines k).1.mp hm)
  exact h.replaceRow k (List.Sublist.refl _) (fun _ _ hm => hm) (by simp [hout, hafter]) hline hdue hjoined
    (fun hl j hj hlj => hj (h.single j k hlj (hsingle hl)))

/-- The rows that joined the queue at `now` with a number above `k` (R132). -/
def laterRow (rows : Table 4 Row) (now : Nat) (k j : RowIx) : Bool := decide ((rows.get j).joined = now ∧ k.val < j.val)

/-- From the first row that joined at `now` with a number above `k` on, every row of the queue did. -/
theorem laterRow_of_mem_dropWhile {rows : Table 4 Row} {k : RowIx} {queue : List RowIx}
    (hsorted : queue.Pairwise (fun j k => (rows.get j).joined < (rows.get k).joined
      ∨ ((rows.get j).joined = (rows.get k).joined ∧ j < k)))
    (hjoined : ∀ j ∈ queue, (rows.get j).joined ≤ now) {j : RowIx} (hj : j ∈ queue.dropWhile (fun j => !laterRow rows now k j)) :
    laterRow rows now k j = true := by
  induction queue with
  | nil => cases hj
  | cons x xs ih =>
    obtain ⟨hx, hxs⟩ := List.pairwise_cons.mp hsorted
    by_cases hlater : laterRow rows now k x = true
    · rw [List.dropWhile_cons_of_neg (by simp [hlater])] at hj
      rcases List.mem_cons.mp hj with rfl | hj
      · exact hlater
      · have hbound := hjoined j (List.mem_cons_of_mem x hj)
        obtain ⟨hnow, hk⟩ := of_decide_eq_true hlater
        refine decide_eq_true ?_
        rcases hx j hj with hlt | ⟨heq, hlt⟩
        · omega
        · exact ⟨by omega, hk.trans hlt⟩
    · rw [List.dropWhile_cons_of_pos (by simpa using hlater)] at hj
      exact ih hxs (fun i hi => hjoined i (List.mem_cons_of_mem x hi)) hj

/-- R132: an EMPTY row that takes a line joins the arbiter queue in its place. -/
theorem queueRow (h : q.InOrder now) {k : RowIx} (hempty : (q.rows.get k).load = .empty) (l : PendingLine) (due : Option Nat) :
    HeadPort.InOrder now { q with
      rows := q.rows.upd k (fun r => { r with load := .queued, line := some l, due := due, joined := now }),
      arbiter := joinQueue q.rows now k q.arbiter } := by
  obtain ⟨rows, hrows⟩ : ∃ rows, rows = q.rows.upd k (fun r => { r with load := .queued, line := some l, due := due, joined := now }) :=
    ⟨_, rfl⟩
  have hself : rows.get k = { q.rows.get k with load := .queued, line := some l, due := due, joined := now } := by
    rw [hrows, Table.get_upd_self]
  have hother : ∀ j, j ≠ k → rows.get j = q.rows.get j := fun j hj => by rw [hrows, Table.get_upd_ne _ _ (Ne.symm hj)]
  have hout : k ∉ q.arbiter := fun hm => by simpa [hempty] using (h.lines k).1.mp hm
  have hne : ∀ {j}, j ∈ q.arbiter → j ≠ k := fun hj e => hout (e ▸ hj)
  obtain ⟨front, hfront⟩ : ∃ front, front = q.arbiter.takeWhile (fun j => !laterRow q.rows now k j) := ⟨_, rfl⟩
  obtain ⟨back, hback⟩ : ∃ back, back = q.arbiter.dropWhile (fun j => !laterRow q.rows now k j) := ⟨_, rfl⟩
  have hsplit : q.arbiter = front ++ back := by rw [hfront, hback, List.takeWhile_append_dropWhile]
  have hjoin : joinQueue q.rows now k q.arbiter = front ++ k :: back := by rw [hfront, hback]; rfl
  have hearlier : ∀ j ∈ front, laterRow q.rows now k j = false := fun j hj =>
    (Bool.not_eq_true' _).mp (List.mem_takeWhile_imp (p := fun j => !laterRow q.rows now k j) (hfront ▸ hj))
  have hlater : ∀ j ∈ back, laterRow q.rows now k j = true := fun j hj =>
    laterRow_of_mem_dropWhile h.sorted h.joined (hback ▸ hj)
  have hmem : ∀ j, j ∈ front ++ k :: back ↔ j = k ∨ j ∈ q.arbiter := fun j => by
    rw [hsplit]
    simp only [List.mem_append, List.mem_cons]
    tauto
  rw [← hrows, hjoin]
  refine ⟨?_, fun j => ?_, fun i j => ?_, ?_, fun j hj => ?_⟩
  · have honce := h.once
    rw [hsplit] at honce hout
    exact (List.perm_middle.nodup_iff).mpr (List.nodup_cons.mpr ⟨hout, honce⟩)
  · dsimp only
    rw [hmem]
    by_cases hj : j = k
    · subst hj
      simp [hself]
    · rw [hother j hj]
      simpa [hj] using h.lines j
  · have hnot : ∀ j, (rows.get j).load = .loading → j ≠ k := fun j hl e => by
      subst e
      rw [hself] at hl
      cases hl
    intro hi hj
    have hi' := hnot i hi
    have hj' := hnot j hj
    dsimp only at hi hj
    rw [hother i hi'] at hi
    rw [hother j hj'] at hj
    exact h.single i j hi hj
  · have hold := h.sorted
    have hk : (rows.get k).joined = now := by rw [hself]
    have hsame : ∀ j ∈ q.arbiter, (rows.get j).joined = (q.rows.get j).joined := fun j hj => by rw [hother j (hne hj)]
    have hrows' : q.arbiter.Pairwise (fun j k => (rows.get j).joined < (rows.get k).joined
        ∨ ((rows.get j).joined = (rows.get k).joined ∧ j < k)) :=
      hold.imp_of_mem fun {i j} hi hj hij => by rwa [hsame i hi, hsame j hj]
    rw [hsplit, List.pairwise_append] at hrows'
    obtain ⟨hpf, hpb, hcross⟩ := hrows'
    refine List.pairwise_append.mpr ⟨hpf, List.pairwise_cons.mpr ⟨fun j hj => ?_, hpb⟩, fun i hi j hj => ?_⟩
    · have hj' : j ∈ q.arbiter := hsplit ▸ List.mem_append_right _ hj
      obtain ⟨hnow, hlt⟩ := of_decide_eq_true (hlater j hj)
      exact .inr ⟨by rw [hk, hsame j hj', hnow], hlt⟩
    · rcases List.mem_cons.mp hj with rfl | hj
      · have hi' : i ∈ q.arbiter := hsplit ▸ List.mem_append_left _ hi
        have hbound := h.joined i hi'
        have hnot := of_decide_eq_false (hearlier i hi)
        have hval : i.val ≠ j.val := fun e => hne hi' (Fin.ext e)
        rw [hk, hsame i hi', Fin.lt_def]
        omega
      · exact hcross i hi j hj
  · dsimp only
    rcases (hmem j).mp hj with rfl | hj
    · rw [hself]
    · rw [hother j (hne hj)]
      exact h.joined j hj

end HeadPort.InOrder

end Sys2Proof.Machine
end

section
/-! # What an event of a job does to the retire points and the rings (R118 to R121, R130, R132)

`Advances`: the rows stay in order and the retire points at the least release serials, and within a job no frontier, no retire point
and no high-water mark falls. `RowsAct`: besides, the rings at most lose entries. Each operation of the rows is one. -/

namespace Sys2Proof.Machine

/-- An event that keeps the rows in order and the retire points as R120 forms them, with nothing of a job falling. -/
structure Advances (s t : State) : Prop where
  idle : t.job.state = .idle ↔ s.job.state = .idle
  high : s.motion.h ≤ t.motion.h
  rows : rowsOk s → rowsOk t
  low : ringsOk s → ringsOk t
  least : retireOk s → retireOk t
  frontier : ∀ p : Plane, (s.rings.get p).frontier ≤ (t.rings.get p).frontier
  retire : ringsOk s → s.job.state ≠ .idle → ∀ p : Plane, (s.rings.get p).retire ≤ (t.rings.get p).retire

theorem Advances.refl (s : State) : Advances s s :=
  ⟨.rfl, le_refl _, id, id, id, fun _ => le_refl _, fun _ _ _ => le_refl _⟩

theorem Advances.trans {s u t : State} (h : Advances s u) (h' : Advances u t) : Advances s t where
  idle := h'.idle.trans h.idle
  high := h.high.trans h'.high
  rows := h'.rows ∘ h.rows
  low := h'.low ∘ h.low
  least := h'.least ∘ h.least
  frontier p := (h.frontier p).trans (h'.frontier p)
  retire hrings hj p := (h.retire hrings hj p).trans (h'.retire (h.low hrings) (fun e => hj (h.idle.mp e)) p)

/-- Of plane `q` the rings at most lose entries. -/
def ringDrains (q : Plane) (s t : State) : Prop :=
  (t.rings.get q).writePosition = (s.rings.get q).writePosition ∧ (t.rings.get q).entries.Sublist (s.rings.get q).entries

/-- An event of the rows: it advances the part and commits no line. -/
structure RowsAct (s t : State) : Prop extends Advances s t where
  drains : ∀ q : Plane, ringDrains q s t

theorem RowsAct.refl (s : State) : RowsAct s s := { Advances.refl s with drains := fun _ => ⟨rfl, List.Sublist.refl _⟩ }

theorem RowsAct.trans {s u t : State} (h : RowsAct s u) (h' : RowsAct u t) : RowsAct s t :=
  { h.toAdvances.trans h'.toAdvances with
    drains := fun q => ⟨(h'.drains q).1.trans (h.drains q).1, (h'.drains q).2.trans (h.drains q).2⟩ }

theorem RowsAct.foldl {α : Type} {f : State → α → State} (h : ∀ s a, RowsAct s (f s a)) (l : List α) (s : State) :
    RowsAct s (l.foldl f s) := by
  induction l generalizing s with
  | nil => exact .refl s
  | cons a l ih => exact (h s a).trans (ih (f s a))

theorem RowsAct.ite {c : Prop} [Decidable c] {s t u : State} (ht : c → RowsAct s t) (hu : ¬c → RowsAct s u) :
    RowsAct s (if c then t else u) := by
  split
  · next hc => exact ht hc
  · next hc => exact hu hc

/-! ### The ring of one plane -/

/-- The participating rows of plane `q` and their release serials are as they were. -/
def reportsKept (q : Plane) (s t : State) : Prop :=
  (∀ r, r ∈ t.participating q ↔ r ∈ s.participating q)
    ∧ ∀ r ∈ s.participating q, (t.row r.1 r.2).release = (s.row r.1 r.2).release

/-- The retire point of plane `q` and the entries above it stand, over the rows they were formed over. -/
def ringStands (q : Plane) (s t : State) : Prop :=
  reportsKept q s t ∧ (t.rings.get q).entries = (s.rings.get q).entries ∧ (t.rings.get q).retire = (s.rings.get q).retire
    ∧ (t.rings.get q).writePosition = (s.rings.get q).writePosition

/-- The retire point of plane `q` is formed again over rows that took part before, with release serials no smaller (R120, R121). -/
def ringReformed (q : Plane) (s t : State) : Prop :=
  (∀ r ∈ t.participating q, r ∈ s.participating q ∧ (s.row r.1 r.2).release ≤ (t.row r.1 r.2).release)
    ∧ ∃ x : Int, t.rings.get q = (s.rings.get q).retireTo x
      ∧ (∀ r ∈ t.participating q, x ≤ (t.row r.1 r.2).release)
      ∧ ((t.participating q = [] ∧ x = (s.rings.get q).retire) ∨ ∃ r ∈ t.participating q, x = (t.row r.1 r.2).release)

section

variable {q : Plane} {s t : State}

/-- `ringsOk` of one plane. -/
def ringLow (q : Plane) (s : State) : Prop :=
  (∀ e ∈ (s.rings.get q).entries, (s.rings.get q).retire < (e.serial : Int))
    ∧ (s.job.state ≠ .idle → ∀ r ∈ s.participating q, (s.rings.get q).retire ≤ (s.row r.1 r.2).release)

/-- `retireOk` of one plane in a job. -/
def ringLeast (q : Plane) (s : State) : Prop :=
  s.participating q = [] ∨ ∃ r ∈ s.participating q, (s.rings.get q).retire = (s.row r.1 r.2).release

theorem ringStands.keeps (h : ringStands q s t) (hidle : t.job.state = .idle ↔ s.job.state = .idle) :
    (ringLow q s → ringLow q t) ∧ (ringLeast q s → ringLeast q t) := by
  obtain ⟨⟨hparts, hrelease⟩, hentries, hretire, -⟩ := h
  refine ⟨fun ⟨habove, hbelow⟩ => ⟨?_, fun hj r hr => ?_⟩, fun hleast => ?_⟩
  · rw [hentries, hretire]
    exact habove
  · have hr := (hparts r).mp hr
    rw [hretire, hrelease r hr]
    exact hbelow (fun e => hj (hidle.mpr e)) r hr
  · rcases hleast with hnone | ⟨r, hr, heq⟩
    · exact .inl (List.eq_nil_iff_forall_not_mem.mpr fun r hr => by simpa [hnone] using (hparts r).mp hr)
    · exact .inr ⟨r, (hparts r).mpr hr, by rw [hretire, hrelease r hr, heq]⟩

theorem ringReformed.keeps (h : ringReformed q s t) : ringLow q t ∧ ringLeast q t := by
  obtain ⟨-, x, hring, hbelow, hleast⟩ := h
  refine ⟨⟨fun e he => ?_, fun _ r hr => ?_⟩, ?_⟩
  · rw [hring] at he ⊢
    exact of_decide_eq_true (List.mem_filter.mp he).2
  · rw [hring]
    exact hbelow r hr
  · rw [ringLeast, hring]
    exact hleast.imp (·.1) id

/-- R120: a retire point formed again does not fall. -/
theorem ringReformed.rises (h : ringReformed q s t) (hlow : ringLow q s) (hj : s.job.state ≠ .idle) :
    (s.rings.get q).retire ≤ (t.rings.get q).retire := by
  obtain ⟨hparts, x, hring, -, hleast⟩ := h
  rw [hring]
  change (s.rings.get q).retire ≤ x
  rcases hleast with ⟨-, rfl⟩ | ⟨r, hr, rfl⟩
  · exact le_refl _
  · obtain ⟨hin, hle⟩ := hparts r hr
    exact (hlow.2 hj r hin).trans hle

end

/-- An event advances the part when the ring of each plane stands or is formed again. -/
theorem RowsAct.ofRings {s t : State} (hidle : t.job.state = .idle ↔ s.job.state = .idle) (hhigh : s.motion.h ≤ t.motion.h)
    (hrows : rowsOk s → rowsOk t) (hfrontier : ∀ q : Plane, (s.rings.get q).frontier ≤ (t.rings.get q).frontier)
    (hrings : ∀ q : Plane, ringStands q s t ∨ ringReformed q s t) : RowsAct s t where
  idle := hidle
  high := hhigh
  rows := hrows
  low hs q := (hrings q).elim (fun h => (h.keeps hidle).1 (hs q)) (fun h => h.keeps.1)
  least hs hj q := (hrings q).elim (fun h => (h.keeps hidle).2 (hs (fun e => hj (hidle.mpr e)) q)) (fun h => h.keeps.2)
  frontier := hfrontier
  retire hs hj q := (hrings q).elim (fun ⟨_, _, hretire, _⟩ => hretire.ge) (fun h => h.rises (hs q) hj)
  drains q := (hrings q).elim (fun ⟨_, hentries, _, hwrite⟩ => ⟨hwrite, hentries ▸ List.Sublist.refl _⟩)
    fun ⟨_, x, hring, _⟩ => by
      rw [ringDrains, hring]
      exact ⟨rfl, List.filter_sublist⟩

/-- The participating rows are found from the plane and head records and the port states. -/
theorem participating_of_records {s t : State} (hplanes : t.geo.planes = s.geo.planes) (hheads : t.geo.heads = s.geo.heads)
    (hstate : ∀ h, (t.ports.get h).state = (s.ports.get h).state) (p : Plane) : t.participating p = s.participating p := by
  have hconfigured : t.geo.configured = s.geo.configured := by
    funext p
    simp only [Geometry.configured, hplanes]
  have hon : t.geo.headsOn p = s.geo.headsOn p := by
    simp only [Geometry.headsOn]
    congr 1
    funext h
    simp only [Geometry.inUseOn, hheads, hconfigured]
  simp only [State.participating, State.rowsOf, hheads, hstate, hon]

/-- An event that leaves each port state, each release serial and each ring as it was. -/
theorem RowsAct.ofReports {s t : State} (hidle : t.job.state = .idle ↔ s.job.state = .idle) (hhigh : s.motion.h ≤ t.motion.h)
    (hrows : rowsOk s → rowsOk t) (hplanes : t.geo.planes = s.geo.planes) (hheads : t.geo.heads = s.geo.heads)
    (hstate : ∀ h, (t.ports.get h).state = (s.ports.get h).state)
    (hrelease : ∀ h k, (t.row h k).release = (s.row h k).release) (hrings : t.rings = s.rings) : RowsAct s t := by
  refine .ofRings hidle hhigh hrows (fun q => by rw [hrings]) fun q => .inl ⟨⟨fun r => ?_, fun r _ => hrelease r.1 r.2⟩, ?_⟩
  · rw [participating_of_records hplanes hheads hstate]
  · rw [hrings]
    exact ⟨rfl, rfl, rfl⟩

/-- The rows stay in order where each port stays so and no time is lost. -/
theorem rowsOk_of_same {s t : State} (hnow : s.now ≤ t.now) (hports : ∀ h k, (t.ports.get h).arbiter = (s.ports.get h).arbiter
    ∧ (t.row h k).load = (s.row h k).load ∧ (t.row h k).line = (s.row h k).line ∧ (t.row h k).due = (s.row h k).due
      ∧ (t.row h k).joined = (s.row h k).joined) (h : rowsOk s) : rowsOk t :=
  rowsOk_iff.mpr fun x => (rowsOk_iff.mp h x).congr hnow (hports x 0).1 fun k => (hports x k).2

/-- An event that leaves the ports, the rings, the records, the Motion Unit and the job alone. -/
theorem RowsAct.ofFrame {bs : List Block} {s t : State} (h : unchangedBut bs s t)
    (hb : bs ⊆ [.place, .memory, .templates, .pool, .composer, .counters, .feed] := by simp) : RowsAct s t := by
  have hframe := h.mono hb
  have hports : t.ports = s.ports := hframe .ports (by simp)
  have hgeo : t.geo = s.geo := hframe .geo (by simp)
  obtain ⟨-, hnow, -⟩ := hframe .outside (by simp)
  have hrow : ∀ x k, t.row x k = s.row x k := fun x k => by rw [State.row, State.row, hports]
  refine .ofReports ?_ (le_of_eq ?_) (rowsOk_of_same hnow.ge fun x k => ?_) (by rw [hgeo]) (by rw [hgeo]) (fun x => by rw [hports])
    (fun x k => by rw [hrow]) (hframe .rings (by simp))
  · rw [show t.job = s.job from hframe .job (by simp)]
  · rw [show t.motion = s.motion from hframe .motion (by simp)]
  · rw [hrow, hports]
    exact ⟨rfl, rfl, rfl, rfl, rfl⟩

theorem RowsAct.bump (c : CounterId) (s : State) : RowsAct s (bump c s) := .ofFrame (bump_frame c s)

/-- An event of the Motion Unit that does not lower H. -/
theorem RowsAct.ofMotion {s : State} {m : Motion} (h : s.motion.h ≤ m.h) : RowsAct s (s.setMotion m) :=
  .ofReports .rfl h id rfl rfl (fun _ => rfl) (fun _ _ => rfl) rfl

/-- One port changed, its state and its release serials kept. -/
theorem RowsAct.ofPort {s t : State} {h : Port} {f : HeadPort → HeadPort} (hframe : unchangedBut [.ports, .counters, .feed] s t)
    (hports : t.ports = s.ports.upd h f) (hstate : (f (s.ports.get h)).state = (s.ports.get h).state)
    (hrelease : ∀ k, ((f (s.ports.get h)).rows.get k).release = (s.row h k).release)
    (horder : (s.ports.get h).InOrder s.now → (f (s.ports.get h)).InOrder s.now) : RowsAct s t := by
  have hgeo : t.geo = s.geo := hframe .geo (by simp)
  obtain ⟨-, hnow, -⟩ := hframe .outside (by simp)
  have hport : ∀ x, t.ports.get x = if h = x then f (s.ports.get h) else s.ports.get x := fun x => by
    rw [hports, Table.get_upd]
    split
    · next e => rw [e]
    · rfl
  refine .ofReports ?_ (le_of_eq ?_) (fun hs => rowsOk_iff.mpr fun x => ?_) (by rw [hgeo]) (by rw [hgeo]) (fun x => ?_)
    (fun x k => ?_) (hframe .rings (by simp))
  · rw [show t.job = s.job from hframe .job (by simp)]
  · rw [show t.motion = s.motion from hframe .motion (by simp)]
  · rw [hport, hnow]
    split
    · exact horder (rowsOk_iff.mp hs h)
    · exact rowsOk_iff.mp hs x
  · rw [hport]
    split
    · next e => rw [← e, hstate]
    · rfl
  · rw [State.row, hport]
    split
    · next e => rw [← e, hrelease]
    · rfl

/-- One port changed outside its rows and its arbiter queue. -/
theorem RowsAct.ofWet (s : State) (h : Port) (f : HeadPort → KeepWet) :
    RowsAct s (s.updPort h (fun q => { q with keepWet := f q })) :=
  .ofPort (f := fun q => { q with keepWet := f q }) ((updPort_frame s h _).mono (by simp)) rfl rfl (fun _ => rfl)
    (fun hq => hq.congr (le_refl _) rfl fun _ => ⟨rfl, rfl, rfl, rfl⟩)

/-- One row changed outside its line, its load and its release serial. -/
theorem RowsAct.ofRow (s : State) (h : Port) (k : RowIx) {f : Row → Row}
    (hf : ∀ r, (f r).load = r.load ∧ (f r).line = r.line ∧ (f r).due = r.due ∧ (f r).joined = r.joined ∧ (f r).release = r.release) :
    RowsAct s (s.updRow h k f) := by
  have hrow : ∀ j, ((s.ports.get h).rows.upd k f).get j = if k = j then f ((s.ports.get h).rows.get j) else (s.ports.get h).rows.get j :=
    fun j => Table.get_upd _ _ _ _
  refine .ofPort (f := fun q => { q with rows := q.rows.upd k f }) ((updRow_frame s h k f).mono (by simp)) rfl rfl (fun j => ?_)
    (fun hq => hq.congr (le_refl _) rfl fun j => ?_) <;> dsimp only <;> rw [hrow]
  · split
    · obtain ⟨-, -, -, -, hrelease⟩ := hf ((s.ports.get h).rows.get j)
      exact hrelease
    · rfl
  · split
    · obtain ⟨hload, hline, hdue, hjoined, -⟩ := hf ((s.ports.get h).rows.get j)
      exact ⟨hload, hline, hdue, hjoined⟩
    · exact ⟨rfl, rfl, rfl, rfl⟩

end Sys2Proof.Machine
end

section
/-! # The rows' operations advance the part (R117 to R121, R128, R132 to R142) -/

namespace Sys2Proof.Machine

/-! ### Release reports -/

theorem rowsOk_release (h : Port) (k : RowIx) (p : Plane) (serial : Nat) (cause : ReleaseCause) {s : State} (hs : rowsOk s) :
    rowsOk (release h k p serial cause s) := by
  obtain ⟨hports, -, -⟩ := release_rows h k p serial cause s
  obtain ⟨-, hnow, -⟩ := release_rows_frame h k p serial cause s .outside (by simp)
  refine rowsOk_of_same hnow.ge (fun x j => ?_) hs
  refine ⟨?_, ?_⟩
  · rw [hports, State.updRow_ports, Table.get_upd]
    split <;> rfl
  · rw [release_row]
    split <;> exact ⟨rfl, rfl, rfl, rfl⟩

/-- R120, R121: a release report of a participating row forms its plane's retire point again. -/
theorem release_reformed {h : Port} {k : RowIx} {p : Plane} {s : State} (hm : (h, k) ∈ s.participating p) (serial : Nat)
    (cause : ReleaseCause) : ringReformed p s (release h k p serial cause s) := by
  have hparts := release_participating h k p p serial cause s
  have hrow := fun g j => release_row h g k j p serial cause s
  obtain ⟨hports, hgeo, hrings⟩ := release_rows h k p serial cause s
  obtain ⟨u, hu⟩ : ∃ u, u = s.updRow h k (fun r => { r with release := max r.release serial }) := ⟨_, rfl⟩
  have hurow : ∀ g j, (release h k p serial cause s).row g j = u.row g j := fun g j => by rw [hrow, hu, row_updRow]
  have huparts : u.participating p = s.participating p :=
    (participating_congr (by rw [hgeo, hu]; rfl) (fun g => by rw [hports, hu]) p).symm.trans hparts
  obtain ⟨hle, r, hr, heq⟩ := formRetire_spec (s := u) (huparts ▸ List.ne_nil_of_mem hm)
  rw [huparts] at hle hr
  rw [if_pos hm, ← hu] at hrings
  refine ⟨fun r hr => ⟨hparts ▸ hr, ?_⟩, u.formRetire p, ?_, fun r hr => ?_, .inr ⟨r, ?_, ?_⟩⟩
  · rw [hrow]
    split
    · exact le_max_left _ _
    · exact le_refl _
  · rw [hrings, Table.get_upd_self]
  · rw [hurow]
    exact hle r (hparts ▸ hr)
  · rw [hparts]
    exact hr
  · rw [hurow, heq]

/-- R119 to R121: a release report of a row of a head in use. -/
theorem release_act {h : Port} {k : RowIx} {p : Plane} {s : State} (hplane : s.planeOf h = some p) (serial : Nat)
    (cause : ReleaseCause) : RowsAct s (release h k p serial cause s) := by
  have hparts := fun q => release_participating h k p q serial cause s
  have hframe := release_rows_frame h k p serial cause s
  obtain ⟨-, -, hrings⟩ := release_rows h k p serial cause s
  refine .ofRings (by rw [show (release h k p serial cause s).job = s.job from hframe .job (by simp)])
    (le_of_eq (by rw [show (release h k p serial cause s).motion = s.motion from hframe .motion (by simp)])) (rowsOk_release h k p serial cause)
    (fun q => (release_frontier h k p q serial cause s).ge) fun q => ?_
  by_cases hacts : q = p ∧ (h, k) ∈ s.participating p
  · obtain ⟨rfl, hm⟩ := hacts
    exact .inr (release_reformed hm serial cause)
  · have hring : (release h k p serial cause s).rings.get q = s.rings.get q := by
      rw [hrings]
      split
      · next hm => exact Table.get_upd_ne _ _ fun e => hacts ⟨e.symm, hm⟩
      · rfl
    refine .inl ⟨⟨fun r => by rw [hparts], fun r hr => ?_⟩, ?_⟩
    · rw [release_row, if_neg]
      rintro ⟨rfl, rfl⟩
      obtain rfl := Option.some.inj ((planeOf_of_mem_participating hr).symm.trans hplane)
      exact hacts ⟨rfl, hr⟩
    · rw [hring]
      exact ⟨rfl, rfl, rfl⟩

/-- A due or load-begun report (R118). -/
theorem raiseFrontier_act (p : Plane) (serial : Nat) (s : State) : RowsAct s (raiseFrontier p serial s) := by
  have hring := fun q => raiseFrontier_ring p q serial s
  refine .ofRings .rfl (le_refl _) id (fun q => ?_) fun q => .inl ⟨⟨fun _ => .rfl, fun _ _ => rfl⟩, ?_⟩ <;> rw [hring] <;> split
  · exact le_max_left _ _
  · exact le_refl _
  · exact ⟨rfl, rfl, rfl⟩
  · exact ⟨rfl, rfl, rfl⟩

theorem raiseFrontier_planeOf (p : Plane) (serial : Nat) (s : State) : (raiseFrontier p serial s).planeOf = s.planeOf := rfl

/-! ### Lines given up -/

theorem dropLineOf_act (h : Port) (k : RowIx) (s : State) : RowsAct s (dropLineOf h k s) := by
  have hrow : ∀ j, ((s.ports.get h).rows.upd k Row.emptied).get j
      = if k = j then ((s.ports.get h).rows.get j).emptied else (s.ports.get h).rows.get j := fun j => Table.get_upd _ _ _ _
  refine .ofPort ((dropLineOf_frame h k s).mono (by simp)) (dropLineOf_ports h k s) rfl (fun j => ?_)
    (fun hq => hq.giveUpRow k (Row.emptied_isEmpty _) rfl)
  rw [HeadPort.giveUpRow, hrow]
  split <;> rfl

theorem dropLineOf_planeOf (h : Port) (k : RowIx) (s : State) : (dropLineOf h k s).planeOf = s.planeOf := by
  funext g
  rw [State.planeOf, State.planeOf, show (dropLineOf h k s).geo = s.geo from dropLineOf_frame h k s .geo (by simp)]

theorem giveUp_act {h : Port} {k : RowIx} {p : Plane} {s : State} (hplane : s.planeOf h = some p) (cause : ReleaseCause) :
    RowsAct s (giveUp h k p cause s) := by
  unfold giveUp
  split
  · exact (dropLineOf_act h k s).trans (release_act (by rw [dropLineOf_planeOf, hplane]) _ _)
  · exact dropLineOf_act h k s

theorem haltRow_act (h : Port) (s : State) (k : RowIx) : RowsAct s (haltRow h s k) := by
  unfold haltRow
  split
  · next p hp => exact .ite (fun _ => .refl s) fun _ => .ite (fun _ => dropLineOf_act h k s) fun _ => giveUp_act hp _
  · exact dropLineOf_act h k s

theorem haltRows_act (s : State) : RowsAct s (haltRows s) :=
  .foldl (fun s h => .foldl (haltRow_act h) allRows s) allPorts s

theorem enterHalted_act (s : State) : RowsAct s (enterHalted s) :=
  (RowsAct.ofFrame (stopComposer_frame s)).trans (haltRows_act _)

/-- The job goes on in another state (R156). -/
theorem RowsAct.ofJob {s : State} {x : Job} (hs : s.job.state ≠ .idle) (hx : x.state ≠ .idle) : RowsAct s (s.setJob x) :=
  .ofReports ⟨fun e => absurd e hx, fun e => absurd e hs⟩ (le_refl _) id rfl rfl (fun _ => rfl) (fun _ _ => rfl) rfl

theorem raiseHalt_act (first : HaltCause) (cause : JobCause) (s : State) : RowsAct s (raiseHalt first cause s) := by
  by_cases h : s.job.state = .running ∨ s.job.state = .stopping
  · rw [raiseHalt_of_active first cause h]
    refine (RowsAct.ofJob (fun e => ?_) (x := ⟨.halted, first⟩) nofun).trans
      ((RowsAct.ofFrame (placeNotice_frame _ _)).trans (enterHalted_act _))
    rcases h with h | h <;> rw [e] at h <;> cases h
  · rw [raiseHalt_of_inactive first cause h]
    exact .ite (fun _ => .bump _ s) fun _ => .refl s

/-! ### Lines taken and fired -/

/-- R132: a row without a line is queued. -/
theorem queueLoad_act {h : Port} {k : RowIx} {s : State} (hline : (s.row h k).line = none) (l : PendingLine) (due : Option Nat) :
    RowsAct s (queueLoad h k l due s) := by
  have hrow : ∀ j, ((s.ports.get h).rows.upd k (fun r => { r with load := .queued, line := some l, due := due, joined := s.now })).get j
      = if k = j then { (s.ports.get h).rows.get j with load := .queued, line := some l, due := due, joined := s.now }
        else (s.ports.get h).rows.get j := fun j => Table.get_upd _ _ _ _
  refine .ofPort (f := fun q => { q with
      rows := q.rows.upd k (fun r => { r with load := .queued, line := some l, due := due, joined := s.now }),
      arbiter := joinQueue q.rows s.now k q.arbiter }) ((queueLoad_frame h k l due s).mono (by simp)) rfl rfl (fun j => ?_)
    (fun hq => hq.queueRow ?_ l due)
  · dsimp only
    rw [hrow]
    split <;> rfl
  · obtain ⟨-, hempty, -⟩ := hq.lines k
    by_contra hload
    have hsome := hempty.mpr hload
    rw [← State.row, hline] at hsome
    cases hsome

/-- R138: the row of a fire ends without a line. -/
theorem fireLine_row (h : Port) (k : RowIx) (s : State) : ((fireLine h k s).row h k).line = none := by
  have hrow : ∀ w : Nat, ((s.updRow h k (fun r => { r.emptied.startWindow s.now w with latched := r.data })).row h k).line = none :=
    fun w => by rw [row_updRow, if_pos ⟨rfl, rfl⟩]; rfl
  unfold fireLine
  dsimp only
  split
  · rw [← hrow (s.geo.heads.get h).window]
    simp only [State.row, bump_ports, State.updPort_ports, Table.get_upd_self]
  · exact hrow _

/-- R138: a row whose line is loaded fires. -/
theorem fireLine_act {h : Port} {k : RowIx} {s : State} (hload : (s.row h k).load = .loaded) : RowsAct s (fireLine h k s) := by
  have hlatch : ∀ w : Nat, RowsAct s (s.updRow h k (fun r => { r.emptied.startWindow s.now w with latched := r.data })) := fun w => by
    refine .ofPort (f := fun q => { q with rows := q.rows.upd k (fun r => { r.emptied.startWindow s.now w with latched := r.data }) })
      ((updRow_frame s h k _).mono (by simp)) rfl rfl (fun j => ?_) (fun hq => hq.updRow k ?_ nofun ?_ nofun rfl nofun)
    · dsimp only
      rw [Table.get_upd]
      split <;> rfl
    · rw [← State.row, hload]
      exact nofun
    · exact ⟨nofun, fun e => absurd rfl e⟩
  unfold fireLine
  dsimp only
  exact (hlatch _).trans (.ite (fun _ => (RowsAct.ofWet _ h _).trans (.bump _ _)) fun _ => .refl _)

theorem prefetch_act {h : Port} {k : RowIx} {s : State} (hline : (s.row h k).line = none) : RowsAct s (prefetch h k s) := by
  unfold prefetch
  split
  · split
    · exact queueLoad_act hline _ _
    · exact .refl s
  · exact .refl s

theorem canFire_loaded {h : Port} {k : RowIx} {s : State} (hc : s.canFire h k = true) : (s.row h k).load = .loaded := by
  simp only [State.canFire, Bool.and_eq_true, beq_iff_eq] at hc
  obtain ⟨⟨⟨hload, -⟩, -⟩, -⟩ := hc
  exact hload

theorem fireNow_act {h : Port} {k : RowIx} {s : State} (hload : (s.row h k).load = .loaded) : RowsAct s (fireNow h k s) := by
  have hlate : ∀ c : Prop, [Decidable c] → ((if c then bump (.lateFires h) (fireLine h k s) else fireLine h k s).row h k).line = none :=
    fun c _ => by
      rw [← fireLine_row h k s]
      split
      · rw [State.row, bump_ports, ← State.row]
      · rfl
  unfold fireNow
  dsimp only
  exact (fireLine_act hload).trans ((RowsAct.ite (fun _ => .bump _ _) fun _ => .refl _).trans (prefetch_act (hlate _)))

theorem forceFire_act {h : Port} {k : RowIx} {s : State} (hload : (s.row h k).load = .loaded) : RowsAct s (forceFire h k s) :=
  (fireLine_act hload).trans (.bump _ _)

/-! ### The print tick (R131, R134, R135, R140) -/

theorem settlePrevious_act {h : Port} {k : RowIx} {p : Plane} {s : State} (hplane : s.planeOf h = some p) :
    RowsAct s (settlePrevious h k p s) :=
  .ite (fun _ => .ite (fun ⟨hload, _⟩ => forceFire_act hload) fun _ => (giveUp_act hplane _).trans (.bump _ _)) fun _ => .refl s

/-- A row with a line becomes due (R135). -/
theorem becomeDue_act {h : Port} {k : RowIx} {s : State} (hline : (s.row h k).line.isSome) (due : Nat) :
    RowsAct s (s.updRow h k (fun r => { r with due := some due })) := by
  refine .ofPort (f := fun q => { q with rows := q.rows.upd k (fun r => { r with due := some due }) })
    ((updRow_frame s h k _).mono (by simp)) rfl rfl (fun j => ?_) (fun hq => ?_)
  · dsimp only
    rw [Table.get_upd]
    split <;> rfl
  · obtain ⟨hqueued, hload, -⟩ := hq.lines k
    exact hq.replaceRow k (List.Sublist.refl _) (fun _ _ hm => hm) hqueued hload (fun _ => hline) rfl
      fun hl j hj hlj => hj (hq.single j k hlj hl)

theorem takeDue_act {h : Port} {k : RowIx} {p : Plane} {s : State} (hplane : s.planeOf h = some p) : RowsAct s (takeDue h k p s) := by
  unfold takeDue
  split
  · exact .refl s
  · next serial _ =>
    refine (raiseFrontier_act p serial s).trans (.ite (fun hline => becomeDue_act hline _) fun hline => ?_)
    split
    · exact queueLoad_act (Option.not_isSome_iff_eq_none.mp hline) _ _
    · exact release_act (by rw [raiseFrontier_planeOf, hplane]) _ _

theorem haltedTick_act {h : Port} {k : RowIx} {p : Plane} {s : State} (hplane : s.planeOf h = some p) :
    RowsAct s (haltedTick h k p s) := by
  unfold haltedTick
  split
  · exact .refl s
  · exact (raiseFrontier_act p _ s).trans (release_act (by rw [raiseFrontier_planeOf, hplane]) _ _)

theorem rowTick_act (h : Port) (s : State) (k : RowIx) : RowsAct s (rowTick h s k) := by
  unfold rowTick
  split
  · exact .refl s
  · next p hp =>
    have hplane : (settlePrevious h k p s).planeOf h = some p := by
      rw [← hp, State.planeOf, State.planeOf,
        show (settlePrevious h k p s).geo = s.geo from settlePrevious_frame h k p s .geo (by simp)]
    exact .ite (fun _ => haltedTick_act hp) fun _ => (settlePrevious_act hp).trans (takeDue_act hplane)

theorem rowsTick_act (s : State) : RowsAct s (rowsTick s) :=
  .foldl (fun u h => .ite (fun _ => .foldl (rowTick_act h) (u.rowsOf h) u) fun _ => .refl u) allPorts s

/-! ### Loads (R132, R133) -/

theorem loadingRow_eq_none {s : State} {h : Port} : s.loadingRow h = none ↔ ∀ j : RowIx, (s.row h j).load ≠ .loading := by
  simp only [State.loadingRow, List.find?_eq_none, mem_allRows, forall_const, beq_iff_eq]

theorem loadingRow_eq_some {s : State} {h : Port} {k : RowIx} (hk : s.loadingRow h = some k) : (s.row h k).load = .loading :=
  beq_iff_eq.mp (List.find?_some (p := fun k => (s.row h k).load == .loading) hk)

theorem canGrant_iff {s : State} {h : Port} : s.canGrant h = true
    ↔ (∀ j : RowIx, (s.row h j).load ≠ .loading) ∧ (s.ports.get h).arbiter ≠ [] ∧ ∃ p, s.planeOf h = some p := by
  simp only [State.canGrant, Bool.and_eq_true, Option.isNone_iff_eq_none, loadingRow_eq_none, Bool.not_eq_true',
    List.isEmpty_eq_false_iff, Option.isSome_iff_exists, and_assoc]

/-- The row at the front of a port's arbiter queue is granted the path (R132, R133). -/
def HeadPort.grant (q : HeadPort) (k : RowIx) (rest : List RowIx) (loadEnd : Nat) : HeadPort :=
  { q with rows := q.rows.upd k (fun r => { r with load := .loading, loadEnd := loadEnd }), arbiter := rest }

theorem HeadPort.InOrder.grant {now : Nat} {q : HeadPort} (hq : q.InOrder now) {k : RowIx} {rest : List RowIx}
    (hfront : q.arbiter = k :: rest) (hfree : ∀ j : RowIx, (q.rows.get j).load ≠ .loading) (loadEnd : Nat) :
    (q.grant k rest loadEnd).InOrder now := by
  have honce := hq.once
  rw [hfront] at honce
  obtain ⟨hqueued, hline, hdue⟩ := hq.lines k
  have hload := hqueued.mp (hfront ▸ List.mem_cons_self)
  have hsome : (q.rows.get k).line.isSome := hline.mpr (by rw [hload]; exact nofun)
  refine hq.replaceRow k (hfront ▸ List.sublist_cons_self _ _) (fun j hj hm => ?_) ?_ ⟨fun _ => nofun, fun _ => hsome⟩ (fun _ => hsome) rfl
    fun _ j _ => hfree j
  · exact (List.mem_cons.mp (hfront ▸ hm)).resolve_left hj
  · exact ⟨fun hm => absurd hm (List.nodup_cons.mp honce).1, nofun⟩

/-- The path granted, before the load-begun report. -/
def grantRow (h : Port) (k : RowIx) (rest : List RowIx) (s : State) : State :=
  s.updPort h (fun q => q.grant k rest (s.now + loadTicks (s.geo.heads.get h).nozzles))

theorem grantLoad_eq {s : State} {h : Port} {k : RowIx} {rest : List RowIx} {p : Plane} (hfront : (s.ports.get h).arbiter = k :: rest)
    (hplane : s.planeOf h = some p) : grantLoad h s
      = (s.row h k).line.elim (grantRow h k rest s) (fun l => raiseFrontier p l.serial (grantRow h k rest s)) := by
  have hrow : ((s.updPort h (fun q => { q with arbiter := rest })).updRow h k
      (fun r => { r with load := .loading, loadEnd := s.now + loadTicks (s.geo.heads.get h).nozzles })) = grantRow h k rest s := by
    rw [State.updRow, updPort_updPort]
    rfl
  have hline : ((grantRow h k rest s).row h k).line = (s.row h k).line := by
    rw [← hrow, row_updRow, if_pos ⟨rfl, rfl⟩]
    simp only [State.row, State.updPort_ports, Table.get_upd_self]
  unfold grantLoad
  simp only [hfront, hplane]
  dsimp only [State.updPort_now, State.updPort_geo]
  rw [hrow, hline]
  cases (s.row h k).line <;> rfl

theorem grantLoad_act {s : State} {h : Port} (hc : s.canGrant h = true) : RowsAct s (grantLoad h s) := by
  obtain ⟨hfree, hne, p, hplane⟩ := canGrant_iff.mp hc
  obtain ⟨k, rest, hfront⟩ := List.exists_cons_of_ne_nil hne
  have hgrant : RowsAct s (grantRow h k rest s) := by
    refine .ofPort (f := fun q => q.grant k rest (s.now + loadTicks (s.geo.heads.get h).nozzles))
      ((updPort_frame s h _).mono (by simp)) rfl rfl (fun j => ?_) (fun hq => hq.grant hfront hfree _)
    rw [HeadPort.grant, Table.get_upd]
    split <;> rfl
  rw [grantLoad_eq hfront hplane]
  cases (s.row h k).line with
  | some l => exact hgrant.trans (raiseFrontier_act p _ _)
  | none => exact hgrant

/-- R133: the row of a load that has run its time holds its levels. -/
theorem loaded_act {h : Port} {k : RowIx} {s : State} (hload : (s.row h k).load = .loading) (data : List Nat) (inked : Bool) :
    RowsAct s (s.updRow h k (fun r => { r with load := .loaded, data := data, inked := inked })) := by
  refine .ofPort (f := fun q => { q with rows := q.rows.upd k (fun r => { r with load := .loaded, data := data, inked := inked }) })
    ((updRow_frame s h k _).mono (by simp)) rfl rfl (fun j => ?_) (fun hq => ?_)
  · dsimp only
    rw [Table.get_upd]
    split <;> rfl
  · obtain ⟨-, hline, hdue⟩ := hq.lines k
    rw [← State.row] at hline
    exact hq.updRow k (by rw [← State.row, hload]; exact nofun) nofun
      ⟨fun _ => nofun, fun _ => hline.mpr (by rw [hload]; exact nofun)⟩ hdue rfl nofun

theorem completeLoad_act {h : Port} {k : RowIx} {p : Plane} {s : State} (hload : (s.row h k).load = .loading)
    (hplane : s.planeOf h = some p) (serial block : Nat) : RowsAct s (completeLoad h k p serial block s) := by
  have hreads := countReads_frame block (s.loadReads p h k) s
  refine (RowsAct.ofFrame hreads).trans ((loaded_act ?_ _ _).trans (release_act ?_ _ _))
  · rw [← hload, State.row, State.row, show (countReads block (s.loadReads p h k) s).ports = s.ports from hreads .ports (by simp)]
  · rw [← hplane, State.planeOf, State.planeOf, State.updRow_geo,
      show (countReads block (s.loadReads p h k) s).geo = s.geo from hreads .geo (by simp)]

/-! ### Windows and keep-wet pulses (R139, R142 to R145) -/

theorem startWindow_act (h : Port) (w : Nat) (s : State) (k : RowIx) : RowsAct s (s.updRow h k (fun r => r.startWindow s.now w)) :=
  .ofRow s h k fun _ => ⟨rfl, rfl, rfl, rfl, rfl⟩

theorem keepWetPulse_act (h : Port) (s : State) : RowsAct s (keepWetPulse h s) :=
  (RowsAct.foldl (startWindow_act h _) _ s).trans ((RowsAct.ofWet _ h _).trans (.bump _ _))

theorem keepWetExpire_act (h : Port) (s : State) : RowsAct s (keepWetExpire h s) :=
  .ite (fun _ => keepWetPulse_act h s) fun _ => .ofWet s h _

/-! ### The encoder's event (R40 to R48) -/

theorem Motion.applyPending_high (m : Motion) : m.applyPending.h = m.h := by
  unfold Motion.applyPending
  split <;> rfl

theorem forwardBoundary_act (s : State) : RowsAct s (forwardBoundary s) := by
  refine .ite (fun hlt => ?_) fun _ => ?_
  · refine (RowsAct.ofMotion ?_).trans ((RowsAct.ofFrame (placementTick_frame _)).trans (rowsTick_act _))
    rw [Motion.printTick, Motion.applyPending_high]
    exact hlt.le
  · exact (RowsAct.ofMotion (by rw [Motion.reTravel, Motion.applyPending_high])).trans (.bump _ _)

theorem reverseBoundary_act (s : State) : RowsAct s (reverseBoundary s) :=
  ((RowsAct.ofMotion (by rw [Motion.reTravel, Motion.applyPending_high])).trans (.bump _ _)).trans
    (.ite (fun _ => raiseHalt_act _ _ _) fun _ => .refl _)

theorem RowsAct.withAcc (s : State) (a : Nat) : RowsAct s (s.setMotion { s.motion with acc := a }) := .ofMotion (le_refl _)

theorem RowsAct.withRawCount (s : State) (n : BitVec 32) : RowsAct s (s.setMotion { s.motion with rawCount := n }) :=
  .ofMotion (le_refl _)

theorem accumulateForward_act (s : State) : RowsAct s (accumulateForward s) := by
  unfold accumulateForward
  split
  · exact .ite (fun _ => (RowsAct.withAcc s _).trans (forwardBoundary_act _)) fun _ => .withAcc s _
  · exact .refl s

theorem accumulateReverse_act (s : State) : RowsAct s (accumulateReverse s) := by
  unfold accumulateReverse
  split
  · exact .ite (fun _ => (RowsAct.withAcc s _).trans (reverseBoundary_act _)) fun _ => .withAcc s _
  · exact .refl s

theorem forwardCount_act (s : State) : RowsAct s (forwardCount s) :=
  (RowsAct.withRawCount s _).trans (.ite (fun _ => .refl _) fun _ => accumulateForward_act _)

theorem reverseCount_act (s : State) : RowsAct s (reverseCount s) :=
  (RowsAct.withRawCount s _).trans (.ite (fun _ => .refl _) fun _ => accumulateReverse_act _)

theorem encoderAccept_act (s : State) : RowsAct s (encoderAccept s) := by
  have htaken : RowsAct s (s.setMotion s.motion.taken) := .ofMotion (le_refl _)
  rw [encoderAccept_eq]
  split
  · exact htaken.trans (forwardCount_act _)
  · exact htaken.trans (reverseCount_act _)
  · exact htaken.trans (.bump _ _)

end Sys2Proof.Machine
end

section
/-! # A head going OFFLINE in a job (R122, R128)

The head gives up its lines with the port already OFFLINE, so no release report forms a retire point; its plane's is then formed again
over the rows that are left. -/

namespace Sys2Proof.Machine

theorem mem_participating {s : State} {p : Plane} {h : Port} {k : RowIx} :
    (h, k) ∈ s.participating p ↔ s.planeOf h = some p ∧ (s.ports.get h).state = .ready ∧ k.val < (s.geo.heads.get h).rows := by
  simp only [State.participating, List.mem_flatMap, List.mem_filter, mem_headsOn, List.mem_map, Prod.mk.injEq, State.rowsOf,
    mem_allRows, true_and, decide_eq_true_eq, planeOf_eq_some, beq_iff_eq]
  exact ⟨fun ⟨_, ⟨hon, hready⟩, _, hrows, hg, hj⟩ => hg ▸ hj ▸ ⟨hon, hready, hrows⟩,
    fun ⟨hon, hready, hrows⟩ => ⟨h, ⟨hon, hready⟩, k, hrows, rfl, rfl⟩⟩

/-- The plane a head prints is found from the plane and head records. -/
theorem planeOf_of_records {s t : State} (hplanes : t.geo.planes = s.geo.planes) (hheads : t.geo.heads = s.geo.heads) (h : Port) :
    t.planeOf h = s.planeOf h := by
  unfold State.planeOf Geometry.configured
  rw [hplanes, hheads]

/-- The line of a row given up, if it has one (R128). -/
def giveUpLine (h : Port) (p : Plane) (s : State) (k : RowIx) : State :=
  if (s.row h k).line.isSome then giveUp h k p .abandoned s else s

theorem giveUpLine_frame (h : Port) (p : Plane) (s : State) (k : RowIx) : unchangedBut [.rings, .ports] s (giveUpLine h p s k) :=
  unchangedBut_ite (giveUp_frame h k p (by simp) s) (unchangedBut_refl _ s)

/-- Without taking part, a row that gives up its line touches its port alone. -/
theorem giveUpLine_rings {h : Port} {p : Plane} {s : State} (k : RowIx) (hstate : (s.ports.get h).state ≠ .ready) :
    (giveUpLine h p s k).rings = s.rings := by
  have hdrop : (dropLineOf h k s).rings = s.rings := dropLineOf_frame h k s .rings (by simp)
  have hout : (h, k) ∉ (dropLineOf h k s).participating p := fun hm => by
    obtain ⟨-, hready, -⟩ := mem_participating.mp hm
    rw [dropLineOf_ports, Table.get_upd_self] at hready
    exact hstate hready
  unfold giveUpLine giveUp
  split
  · split
    · rw [(release_rows h k p _ _ _).2.2, if_neg hout, hdrop]
    · exact hdrop
  · rfl

theorem giveUpLine_port (h : Port) (p : Plane) (s : State) (k : RowIx) :
    ((giveUpLine h p s k).ports.get h).state = (s.ports.get h).state
      ∧ ((giveUpLine h p s k).ports.get h).faultCount = (s.ports.get h).faultCount
      ∧ ((giveUpLine h p s k).ports.get h).keepWet = (s.ports.get h).keepWet
      ∧ ∀ g, g ≠ h → (giveUpLine h p s k).ports.get g = s.ports.get g := by
  unfold giveUpLine
  split
  · rw [giveUp_ports, Table.get_upd_self]
    exact ⟨rfl, rfl, rfl, fun g hg => Table.get_upd_ne _ _ (Ne.symm hg)⟩
  · exact ⟨rfl, rfl, rfl, fun _ _ => rfl⟩

/-- A row in order gives up its line, or has none to give up. -/
theorem giveUpLine_ports {h : Port} {p : Plane} {s : State} (hok : (s.ports.get h).linesOk) (k : RowIx) :
    (giveUpLine h p s k).ports = s.ports.upd h (fun q => q.giveUpRow k Row.abandoned) := by
  have hrow : s.row h k = (s.ports.get h).rows.get k := rfl
  unfold giveUpLine
  by_cases hline : (s.row h k).line.isSome
  · rw [if_pos hline, giveUp_ports]
  · obtain ⟨hqueued, hload, hdue⟩ := hok k
    rw [← hrow] at hload hdue hqueued
    obtain ⟨hempty, -⟩ := Row.halted_of_no_line (Option.not_isSome_iff_eq_none.mp hline) hload hdue
    have hself : (s.row h k).abandoned = s.row h k := by
      have hnone := Option.not_isSome_iff_eq_none.mp hline
      have hnodue := Option.not_isSome_iff_eq_none.mp (mt hdue hline)
      generalize s.row h k = r at hnone hnodue hempty
      obtain ⟨load, line, due, window, loadEnd, data, inked, latched, release, joined⟩ := r
      subst hnone hnodue hempty
      rfl
    have hout : ∀ j ∈ (s.ports.get h).arbiter, (j != k) = true := fun j hj => by
      rw [bne_iff_ne]
      rintro rfl
      rw [hqueued, hempty] at hj
      cases hj
    have hport : (s.ports.get h).giveUpRow k Row.abandoned = s.ports.get h := by
      rw [HeadPort.giveUpRow, List.filter_eq_self.mpr hout, Table.upd, ← hrow, hself, hrow, Table.put_get_self]
    rw [if_neg hline, Table.upd, hport, Table.put_get_self]

/-- The port OFFLINE, with its head's offline-from serial (R128). -/
def wentOffline (h : Port) (p : Plane) (s : State) : State :=
  (s.setGeo { s.geo with offlineFrom := s.geo.offlineFrom.put h (some ((s.rings.get p).frontier + 1).toNat) }).updPort h
    (fun q => { q with state := .offline, faultCount := 0 })

/-- Every line of the head given up (R128). -/
def linesGivenUp (h : Port) (p : Plane) (s : State) : State := allRows.foldl (giveUpLine h p) (wentOffline h p s)

/-- The retire point formed again, the timer disarmed and the notice placed (R122, R128). -/
def reportOffline (h : Port) (p : Plane) (u : State) : State :=
  placeNotice (.headState h .offline) ((reformRetire p u).updPort h (fun q => { q with keepWet := q.keepWet.disarm }))

theorem reportOffline_geo (h : Port) (p : Plane) (u : State) : (reportOffline h p u).geo = u.geo := by
  rw [reportOffline, placeNotice_geo]
  rfl

theorem reportOffline_ports (h : Port) (p : Plane) (u : State) :
    (reportOffline h p u).ports = u.ports.upd h (fun q => { q with keepWet := q.keepWet.disarm }) := by
  rw [reportOffline, placeNotice_ports]
  rfl

theorem reportOffline_state (h : Port) (p : Plane) (u : State) (g : Port) :
    ((reportOffline h p u).ports.get g).state = (u.ports.get g).state := by
  rw [reportOffline_ports, Table.get_upd]
  split <;> rfl

theorem reportOffline_rings (h : Port) (p : Plane) (u : State) :
    (reportOffline h p u).rings = u.rings.upd p (fun g => g.retireTo (u.formRetire p)) := by
  rw [reportOffline, placeNotice_rings]
  rfl

theorem reportOffline_frame (h : Port) (p : Plane) (u : State) : unchangedBut [.rings, .ports, .feed] u (reportOffline h p u) := by
  refine (reformRetire_frame p u).andThen ((updPort_frame _ h _).andThen (placeNotice_frame _ _) (ds := [.ports, .feed]) ?_ ?_) ?_ ?_ <;> simp

/-- The head OFFLINE, before the policy of R156 is looked at. -/
def headOffline (h : Port) (p : Plane) (s : State) : State := reportOffline h p (linesGivenUp h p s)

theorem offlineInJob_eq (h : Port) (p : Plane) (s : State) : offlineInJob h p s =
    if ((headOffline h p s).geo.heads.get h).policy = .halt then raiseHalt (.headFault h) (.headFault h) (headOffline h p s)
    else headOffline h p s := rfl

section

variable (h : Port) (p : Plane) (s : State)

theorem linesGivenUp_frame : unchangedBut [.rings, .ports] (wentOffline h p s) (linesGivenUp h p s) :=
  unchangedBut_foldl (giveUpLine_frame h p) allRows _

theorem wentOffline_frame : unchangedBut [.geo, .ports] s (wentOffline h p s) :=
  (setGeo_frame s _).andThen (updPort_frame _ h _) (by simp) (by simp)

theorem headOffline_frame : unchangedBut [.geo, .rings, .ports, .feed] s (headOffline h p s) := by
  refine (wentOffline_frame h p s).andThen ((linesGivenUp_frame h p s).andThen (reportOffline_frame h p _)
    (ds := [.rings, .ports, .feed]) ?_ ?_) ?_ ?_ <;> simp

theorem linesGivenUp_geo : (linesGivenUp h p s).geo
    = { s.geo with offlineFrom := s.geo.offlineFrom.put h (some ((s.rings.get p).frontier + 1).toNat) } :=
  linesGivenUp_frame h p s .geo (by simp)

/-- What the head's lines given up leave of the ports and the rings. -/
theorem linesGivenUp_port : ((linesGivenUp h p s).ports.get h).state = .offline ∧ ((linesGivenUp h p s).ports.get h).faultCount = 0
    ∧ ((linesGivenUp h p s).ports.get h).keepWet = (s.ports.get h).keepWet
    ∧ (∀ g, g ≠ h → (linesGivenUp h p s).ports.get g = s.ports.get g) ∧ (linesGivenUp h p s).rings = s.rings := by
  refine foldl_keeps (P := fun u => (u.ports.get h).state = .offline ∧ (u.ports.get h).faultCount = 0
    ∧ (u.ports.get h).keepWet = (s.ports.get h).keepWet ∧ (∀ g, g ≠ h → u.ports.get g = s.ports.get g) ∧ u.rings = s.rings)
    (fun u k ⟨hstate, hfault, hwet, hports, hrings⟩ => ?_) allRows ?_
  · obtain ⟨hstate', hfault', hwet', hports'⟩ := giveUpLine_port h p u k
    exact ⟨hstate'.trans hstate, hfault'.trans hfault, hwet'.trans hwet, fun g hg => (hports' g hg).trans (hports g hg),
      (giveUpLine_rings k (by rw [hstate]; exact nofun)).trans hrings⟩
  · rw [show (wentOffline h p s).ports.get h = { s.ports.get h with state := .offline, faultCount := 0 } from Table.get_upd_self _ _ _]
    exact ⟨rfl, rfl, rfl, fun g hg => Table.get_upd_ne _ _ (Ne.symm hg), rfl⟩

/-- A head in order ends with every row ABANDONED and none queued (R128). -/
theorem linesGivenUp_ports (hok : (s.ports.get h).linesOk) : (linesGivenUp h p s).ports.get h = { s.ports.get h with
    state := .offline, faultCount := 0, rows := .ofFun (fun k => ((s.ports.get h).rows.get k).abandoned), arbiter := [] } := by
  have hfold : ∀ (ks : List RowIx) (u : State), (u.ports.get h).linesOk → (ks.foldl (giveUpLine h p) u).ports.get h
      = ks.foldl (fun q k => q.giveUpRow k Row.abandoned) (u.ports.get h) := by
    intro ks
    induction ks with
    | nil => exact fun _ _ => rfl
    | cons k ks ih =>
      intro u hu
      have hport : (giveUpLine h p u k).ports.get h = (u.ports.get h).giveUpRow k Row.abandoned := by
        rw [giveUpLine_ports hu, Table.get_upd_self]
      rw [List.foldl_cons, ih _ (by rw [hport]; exact HeadPort.linesOk_giveUpRow hu k fun r => ⟨rfl, rfl, rfl⟩), hport, List.foldl_cons]
  have hport : (wentOffline h p s).ports.get h = { s.ports.get h with state := .offline, faultCount := 0 } := Table.get_upd_self _ _ _
  rw [linesGivenUp, hfold allRows _ (by rw [hport]; exact hok), giveUpRow_allRows, hport]

theorem headOffline_geo : (headOffline h p s).geo
    = { s.geo with offlineFrom := s.geo.offlineFrom.put h (some ((s.rings.get p).frontier + 1).toNat) } :=
  (reportOffline_geo h p _).trans (linesGivenUp_geo h p s)

theorem headOffline_port : (headOffline h p s).ports.get h
    = { (linesGivenUp h p s).ports.get h with keepWet := ((linesGivenUp h p s).ports.get h).keepWet.disarm } := by
  rw [headOffline, reportOffline_ports, Table.get_upd_self]

theorem headOffline_ports {g : Port} (hg : g ≠ h) : (headOffline h p s).ports.get g = s.ports.get g := by
  obtain ⟨-, -, -, hports, -⟩ := linesGivenUp_port h p s
  rw [← hports g hg, headOffline, reportOffline_ports, Table.get_upd_ne _ _ (Ne.symm hg)]

theorem headOffline_ring (q : Plane) : (headOffline h p s).rings.get q
    = if p = q then (s.rings.get q).retireTo ((linesGivenUp h p s).formRetire p) else s.rings.get q := by
  obtain ⟨-, -, -, -, hrings⟩ := linesGivenUp_port h p s
  rw [headOffline, reportOffline_rings, Table.get_upd, hrings]

/-- The rows of the head that went OFFLINE no longer take part; the others do as before. -/
theorem headOffline_participating (q : Plane) (r : Port × RowIx) :
    r ∈ (headOffline h p s).participating q ↔ r ∈ s.participating q ∧ r.1 ≠ h := by
  obtain ⟨g, k⟩ := r
  have hplane : (headOffline h p s).planeOf g = s.planeOf g :=
    planeOf_of_records (by rw [headOffline_geo]) (by rw [headOffline_geo]) g
  rw [mem_participating, mem_participating, hplane, headOffline_geo]
  by_cases hg : g = h
  · subst hg
    obtain ⟨hstate, -⟩ := linesGivenUp_port g p s
    rw [headOffline_port]
    simp [hstate]
  · simp only [headOffline_ports h p s hg, ne_eq, hg, not_false_eq_true, and_true]

/-- R120, R128: the retire point of the head's plane is formed again. -/
theorem headOffline_reformed : ringReformed p s (headOffline h p s) := by
  obtain ⟨-, -, -, hports, hrings⟩ := linesGivenUp_port h p s
  have hparts : (headOffline h p s).participating p = (linesGivenUp h p s).participating p :=
    participating_congr (reportOffline_geo h p _) (reportOffline_state h p _) p
  have hrow : ∀ r ∈ (headOffline h p s).participating p, (headOffline h p s).row r.1 r.2 = s.row r.1 r.2
      ∧ (linesGivenUp h p s).row r.1 r.2 = s.row r.1 r.2 := fun r hr => by
    obtain ⟨-, hg⟩ := (headOffline_participating h p s p r).mp hr
    exact ⟨by rw [State.row, headOffline_ports h p s hg]; rfl, by rw [State.row, hports r.1 hg]; rfl⟩
  have hform : (∀ r ∈ (headOffline h p s).participating p, (linesGivenUp h p s).formRetire p ≤ (s.row r.1 r.2).release)
      ∧ (((headOffline h p s).participating p = [] ∧ (linesGivenUp h p s).formRetire p = (s.rings.get p).retire)
        ∨ ∃ r ∈ (headOffline h p s).participating p, (linesGivenUp h p s).formRetire p = (s.row r.1 r.2).release) := by
    by_cases hnone : (headOffline h p s).participating p = []
    · refine ⟨by simp [hnone], .inl ⟨hnone, ?_⟩⟩
      rw [State.formRetire, ← hparts, hnone, hrings]
      rfl
    · obtain ⟨hle, r, hr, heq⟩ := formRetire_spec (s := linesGivenUp h p s) (p := p) (hparts ▸ hnone)
      rw [← hparts] at hle hr
      exact ⟨fun r hr => (hrow r hr).2 ▸ hle r hr, .inr ⟨r, hr, (hrow r hr).2 ▸ heq⟩⟩
  obtain ⟨hle, hleast⟩ := hform
  refine ⟨fun r hr => ⟨((headOffline_participating h p s p r).mp hr).1, by rw [(hrow r hr).1]⟩,
    (linesGivenUp h p s).formRetire p, ?_, fun r hr => by rw [(hrow r hr).1]; exact hle r hr, hleast.imp id ?_⟩
  · rw [headOffline_ring, if_pos rfl]
  · exact fun ⟨r, hr, heq⟩ => ⟨r, hr, by rw [(hrow r hr).1]; exact heq⟩

end

/-- The ring of another plane stands. -/
theorem headOffline_stands {h : Port} {p q : Plane} {s : State} (hplane : s.planeOf h = some p) (hq : q ≠ p) :
    ringStands q s (headOffline h p s) := by
  have hne : ∀ r ∈ s.participating q, r.1 ≠ h := fun r hr e => by
    have hr' := planeOf_of_mem_participating (h := r.1) (k := r.2) hr
    rw [e, hplane] at hr'
    exact hq (Option.some.inj hr').symm
  refine ⟨⟨fun r => ?_, fun r hr => ?_⟩, ?_⟩
  · rw [headOffline_participating]
    exact and_iff_left_of_imp (hne r)
  · rw [State.row, headOffline_ports h p s (hne r hr)]
    rfl
  · rw [headOffline_ring, if_neg (Ne.symm hq)]
    exact ⟨rfl, rfl, rfl⟩

theorem headOffline_act {h : Port} {p : Plane} {s : State} (hplane : s.planeOf h = some p) : RowsAct s (headOffline h p s) := by
  have hframe := headOffline_frame h p s
  obtain ⟨-, hnow, -⟩ := hframe .outside (by simp)
  refine .ofRings (by rw [show (headOffline h p s).job = s.job from hframe .job (by simp)])
    (le_of_eq (by rw [show (headOffline h p s).motion = s.motion from hframe .motion (by simp)])) (fun hs => ?_) (fun q => ?_) fun q => ?_
  · refine rowsOk_iff.mpr fun g => ?_
    by_cases hg : g = h
    · subst hg
      rw [headOffline_port, linesGivenUp_ports _ _ _ (linesOk_of_rowsOk hs g)]
      refine .ofEmpty _ rfl fun k => ?_
      rw [Table.get_ofFun]
      exact ⟨rfl, rfl, rfl⟩
    · rw [headOffline_ports h p s hg, hnow]
      exact rowsOk_iff.mp hs g
  · rw [headOffline_ring]
    split <;> exact le_refl _
  · by_cases hq : q = p
    · subst hq
      exact .inr (headOffline_reformed h q s)
    · exact .inl (headOffline_stands hplane hq)

theorem offlineInJob_act {h : Port} {p : Plane} {s : State} (hplane : s.planeOf h = some p) : RowsAct s (offlineInJob h p s) := by
  rw [offlineInJob_eq]
  exact (headOffline_act hplane).trans (.ite (fun _ => raiseHalt_act _ _ _) fun _ => .refl _)

end Sys2Proof.Machine
end

section
/-! # Commits (R115)

A line committed joins its ring above the retire point, which does not move. -/

namespace Sys2Proof.Machine

theorem commitTo_advances (serial : Nat) (p : Plane) (s : State) : Advances s (commitTo serial p s) := by
  by_cases hlate : (serial : Int) ≤ (s.rings.get p).retire
  · rw [commitTo_late hlate]
    exact (RowsAct.bump _ s).toAdvances
  · have hring : ∀ q, (commitTo serial p s).rings.get q = if p = q then (s.rings.get q).accept (s.memory.depth q) serial else s.rings.get q :=
      fun q => by
        rw [commitTo_ring]
        by_cases hq : p = q
        · subst hq
          rw [if_pos ⟨rfl, hlate⟩, if_pos rfl]
        · rw [if_neg (fun e => hq e.1.symm), if_neg hq]
    have hretire : ∀ q, ((commitTo serial p s).rings.get q).retire = (s.rings.get q).retire := commitTo_retire
    have hsame : unchangedBut [.rings] s (commitTo serial p s) := commitTo_accepted hlate ▸ updRing_frame s p _
    have hports : (commitTo serial p s).ports = s.ports := hsame .ports (by simp)
    have hjob : (commitTo serial p s).job = s.job := hsame .job (by simp)
    have hparts : ∀ q, (commitTo serial p s).participating q = s.participating q :=
      participating_congr (hsame .geo (by simp)) fun h => by rw [hports]
    obtain ⟨-, hnow, -⟩ := hsame .outside (by simp)
    have hrow : ∀ h k, (commitTo serial p s).row h k = s.row h k := fun h k => by rw [State.row, hports]; rfl
    refine ⟨by rw [hjob], le_of_eq (by rw [show (commitTo serial p s).motion = s.motion from hsame .motion (by simp)]),
      rowsOk_of_same hnow.ge fun h k => by rw [hrow, hports]; exact ⟨rfl, rfl, rfl, rfl, rfl⟩, fun hs q => ?_, fun hs => ?_, fun q => ?_,
      fun _ _ q => (hretire q).ge⟩
    · obtain ⟨habove, hbelow⟩ := hs q
      rw [hretire, hparts, hjob]
      refine ⟨fun e he => ?_, fun hj r hr => by rw [hrow]; exact hbelow hj r hr⟩
      rw [hring] at he
      split at he
      · next hq =>
        subst hq
        rcases List.mem_append.mp he with he | he
        · exact habove e he
        · rw [List.mem_singleton.mp he]
          exact not_le.mp hlate
      · exact habove e he
    · rw [retireOk, hjob]
      intro hj q
      rw [hparts, hretire]
      refine (hs hj q).imp id fun ⟨r, hr, heq⟩ => ⟨r, hr, by rw [hrow]; exact heq⟩
    · rw [hring]
      split <;> exact le_refl _

theorem Advances.foldl {α : Type} {f : State → α → State} (h : ∀ s a, Advances s (f s a)) (l : List α) (s : State) :
    Advances s (l.foldl f s) := by
  induction l generalizing s with
  | nil => exact .refl s
  | cons a l ih => exact (h s a).trans (ih (f s a))

theorem completeComposition_advances (f : Composition) (s : State) : Advances s (completeComposition f s) := by
  have hlines : Advances s (f.targets.foldl (writeLine f) s) :=
    (RowsAct.ofFrame (unchangedBut_foldl (writeLine_frame f) f.targets s)).toAdvances
  have hcommits : ∀ u : State, Advances u (f.targets.foldl (fun v t => commitTo v.composer.serial t.1 v) u) :=
    .foldl (fun v t => commitTo_advances v.composer.serial t.1 v) f.targets
  have hcomposer : ∀ (u : State) (x : PatchPool) (c : Composer), Advances u ((u.setPool x).setComposer c) := fun u x c =>
    (RowsAct.ofFrame ((setPool_frame u x).andThen (setComposer_frame _ c) (ds := [.pool, .composer]) (by simp) (by simp))).toAdvances
  unfold completeComposition
  exact (hlines.trans (hcommits _)).trans (hcomposer _ _ _)

end Sys2Proof.Machine
end

section
/-! # Rows, rings and retire points from step to step (R113, R118, R120, R130, R132)

`KeepsRows`: what O58 says of one step beside the fill of the rings. An event of a job `Advances`; the others enter IDLE, stay in it or
start a job. -/

namespace Sys2Proof.Machine

/-- An event keeps the rows in order and the retire points as R120 forms them, and within a job nothing falls. -/
structure KeepsRows (s t : State) : Prop where
  rows : rowsOk s → rowsOk t
  low : ringsOk s → ringsOk t
  least : retireOk s → retireOk t
  rise : ringsOk s → s.job.state ≠ .idle → t.job.state ≠ .idle → s.motion.h ≤ t.motion.h
    ∧ ∀ p : Plane, (s.rings.get p).frontier ≤ (t.rings.get p).frontier ∧ (s.rings.get p).retire ≤ (t.rings.get p).retire

theorem Advances.keepsRows {s t : State} (h : Advances s t) : KeepsRows s t :=
  ⟨h.rows, h.low, h.least, fun hs hj _ => ⟨h.high, fun p => ⟨h.frontier p, h.retire hs hj p⟩⟩⟩

theorem RowsAct.keepsRows {s t : State} (h : RowsAct s t) : KeepsRows s t := h.toAdvances.keepsRows

theorem KeepsRows.refl (s : State) : KeepsRows s s := (Advances.refl s).keepsRows

theorem KeepsRows.andThen {s u t : State} (h : KeepsRows s u) (h' : Advances u t) : KeepsRows s t where
  rows := h'.rows ∘ h.rows
  low := h'.low ∘ h.low
  least := h'.least ∘ h.least
  rise hs hj ht := by
    have hu := fun e => ht (h'.idle.mpr e)
    obtain ⟨hhigh, hrise⟩ := h.rise hs hj hu
    exact ⟨hhigh.trans h'.high, fun p => ⟨(hrise p).1.trans (h'.frontier p), (hrise p).2.trans (h'.retire (h.low hs) hu p)⟩⟩

theorem KeepsRows.after {s u t : State} (h : Advances s u) (h' : KeepsRows u t) : KeepsRows s t where
  rows := h'.rows ∘ h.rows
  low := h'.low ∘ h.low
  least := h'.least ∘ h.least
  rise hs hj ht := by
    have hu := fun e => hj (h.idle.mp e)
    obtain ⟨hhigh, hrise⟩ := h'.rise (h.low hs) hu ht
    exact ⟨h.high.trans hhigh, fun p => ⟨(h.frontier p).trans (hrise p).1, (h.retire hs hj p).trans (hrise p).2⟩⟩

/-- An event that ends in IDLE and leaves the rings as they were. -/
theorem KeepsRows.ofIdle {s t : State} (hidle : t.job.state = .idle) (hrows : rowsOk s → rowsOk t) (hrings : t.rings = s.rings) :
    KeepsRows s t where
  rows := hrows
  low hs p := ⟨by rw [hrings]; exact (hs p).1, fun hj => absurd hidle hj⟩
  least _ hj := absurd hidle hj
  rise _ _ ht := absurd hidle ht

theorem KeepsRows.ite {c : Prop} [Decidable c] {s t u : State} (ht : c → KeepsRows s t) (hu : ¬c → KeepsRows s u) :
    KeepsRows s (if c then t else u) := by
  split
  · next hc => exact ht hc
  · next hc => exact hu hc

/-! ### At rest (R141, R153) -/

/-- The part in IDLE with every ring as R124 empties it, no composition in flight and no line pending. -/
structure AtRest (t : State) : Prop where
  idle : t.job.state = .idle
  rings : ∀ p : Plane, t.rings.get p = .emptied
  flight : t.composer.flight = none
  ports : ∀ h : Port, (t.ports.get h).arbiter = [] ∧ ∀ k : RowIx, (t.row h k).isEmpty

theorem AtRest.keepsRows {t : State} (h : AtRest t) (s : State) : KeepsRows s t where
  rows _ := rowsOk_iff.mpr fun x => .ofEmpty _ (h.ports x).1 (h.ports x).2
  low _ p := ⟨by rw [h.rings p]; exact fun e he => absurd he List.not_mem_nil, fun hj => absurd h.idle hj⟩
  least _ hj := absurd h.idle hj
  rise _ _ ht := absurd h.idle ht

theorem AtRest.ringsFilled {t : State} (h : AtRest t) : ringsFilled t :=
  ⟨fun p => by rw [h.rings p]; exact ⟨rfl, Nat.zero_le _, fun e he => absurd he List.not_mem_nil⟩, by rw [h.flight]; exact nofun⟩

/-- An event that leaves the job, the rings, the Composer and the ports alone. -/
theorem AtRest.ofFrame {bs : List Block} {s t : State} (hs : AtRest s) (h : unchangedBut bs s t)
    (hb : bs ⊆ [.geo, .motion, .place, .memory, .templates, .pool, .counters, .feed] := by simp) : AtRest t := by
  have hframe := h.mono hb
  have hports : t.ports = s.ports := hframe .ports (by simp)
  refine ⟨?_, fun p => ?_, ?_, fun x => ⟨?_, fun k => ?_⟩⟩
  · rw [show t.job = s.job from hframe .job (by simp)]
    exact hs.idle
  · rw [show t.rings = s.rings from hframe .rings (by simp)]
    exact hs.rings p
  · rw [show t.composer = s.composer from hframe .composer (by simp)]
    exact hs.flight
  · rw [hports]
    exact (hs.ports x).1
  · rw [State.row, hports]
    exact (hs.ports x).2 k

/-- R153: the job cleared in IDLE. -/
theorem clearJob_atRest {s : State} (hj : s.job.state = .idle) : AtRest (clearJob s) := by
  refine AtRest.ofFrame (s := dropAllLines ((clearComposer ((s.setMotion s.motion.toIdle).setPlace
    { (s.setMotion s.motion.toIdle).place with list := [] })).setRings (.all 6 .emptied))) ?_ (completeSwitches_frame _)
  refine ⟨hj, fun p => Table.get_all _ _, rfl, fun h => ?_⟩
  have hport : ∀ u : State, (dropAllLines u).ports.get h = (u.ports.get h).dropLines := fun u => Table.get_ofFun _ _
  simp only [State.row, hport]
  refine ⟨rfl, fun k => ?_⟩
  rw [HeadPort.dropLines, Table.get_ofFun]
  exact Row.emptied_isEmpty _

theorem enterIdle_atRest (cause : JobCause) (s : State) : AtRest (enterIdle cause s) := by
  rw [enterIdle_eq]
  exact (clearJob_atRest (toIdle_state cause s)).ofFrame (closeAllDrained_frame _)

/-- R129: a port that leaves OFFLINE ends with every row EMPTY. -/
theorem recoverPort_atRest {s : State} (hs : AtRest s) (h : Port) : AtRest (recoverPort s h) := by
  unfold recoverPort
  split
  · rw [portRecovers_eq]
    refine AtRest.ofFrame (s := s.updPort h (fun q => q.dropLines.readied s.now)) ⟨hs.idle, hs.rings, hs.flight, fun x => ?_⟩
      ((setGeo_frame _ _).andThen (placeNotice_frame _ _) (ds := [.geo, .feed]) (by simp) (by simp))
    rw [State.updPort_ports, Table.get_upd]
    simp only [State.row, State.updPort_ports, Table.get_upd]
    split
    · refine ⟨rfl, fun k => ?_⟩
      rw [get_dropLines_readied]
      exact ⟨rfl, rfl, rfl⟩
    · exact hs.ports x
  · exact hs

theorem ownRestart_atRest (s : State) : AtRest (ownRestart s).1 := by
  have hcleared : AtRest (restartCleared s) := by
    unfold restartCleared
    exact clearJob_atRest (toIdle_state _ _)
  rw [ownRestart_eq]
  dsimp only
  generalize restartCleared s = u at hcleared
  unfold restartRest
  refine foldl_keeps (P := AtRest) (fun v h hv => recoverPort_atRest hv h) allPorts (hcleared.ofFrame
    ((setMotion_frame u { u.motion with rawCount := 0 }).andThen ((setTemplates_frame _ { u.templates with writing := none }).andThen
      (closeAllChannels_frame _) (ds := [.templates, .feed]) (by simp) (by simp)) (ds := [.motion, .templates, .feed]) (by simp) (by simp)))

/-- The part after power-on or RESET (R159). -/
theorem reset_atRest {t : State} (hjob : t.job = State.reset.job) (hrings : t.rings = State.reset.rings)
    (hcomposer : t.composer = State.reset.composer) (hports : t.ports = State.reset.ports) : AtRest t := by
  refine ⟨by rw [hjob]; rfl, fun p => by rw [hrings, reset_ring], by rw [hcomposer]; rfl, fun h => ⟨?_, fun k => ?_⟩⟩
  · rw [hports, (reset_port h).2.2]
    rfl
  · rw [State.row, hports, ← State.row, reset_row]
    exact ⟨rfl, rfl, rfl⟩

/-! ### Requests -/

/-- A table or a field of the Geometry Store changed, its plane and head records kept. -/
theorem RowsAct.ofGeo {s : State} {g : Geometry} (hplanes : g.planes = s.geo.planes) (hheads : g.heads = s.geo.heads) :
    RowsAct s (s.setGeo g) :=
  .ofReports .rfl (le_refl _) id hplanes hheads (fun _ => rfl) (fun _ _ => rfl) rfl

theorem completeSwitch_act (p : Plane) (s : State) : RowsAct s (completeSwitch p s) :=
  (RowsAct.ofGeo (s := s) (g := s.geo.completeSwitch p) rfl rfl).trans (.ofFrame (placeNotice_frame _ _))

theorem ownSetNozzles_act (port row : Byte) (first count : BitVec 16) (statuses : List Byte) (s : State) :
    RowsAct s (ownSetNozzles port row first count statuses s).1 := by
  unfold ownSetNozzles
  split
  · exact .refl s
  · split
    · exact .refl s
    · split
      · exact .refl s
      · split
        · exact .ofGeo rfl rfl
        · split
          · exact .refl s
          · exact .ofGeo rfl rfl
      · exact .ofGeo rfl rfl

theorem ownSetKeepWet_act (port interval mode : Byte) (s : State) : RowsAct s (ownSetKeepWet port interval mode s).1 := by
  unfold ownSetKeepWet
  split
  · exact .ofWet s _ _
  · exact .refl s

theorem ownSetMotion_act (sense filter : Byte) (limit : BitVec 16) (n m : BitVec 24) (s : State) :
    RowsAct s (ownSetMotion sense filter limit n m s).1 := by
  unfold ownSetMotion
  split
  · split
    · exact .refl s
    · exact .ofMotion (le_refl _)
  · exact .refl s

theorem ownSetRatio_act (n m : BitVec 24) (s : State) : RowsAct s (ownSetRatio n m s).1 := by
  unfold ownSetRatio
  split
  · exact .refl s
  · split
    · exact .ofMotion (le_refl _)
    · exact .ofMotion (le_refl _)

/-- In IDLE the rows stay in order where each port keeps its rows and its arbiter queue. -/
theorem KeepsRows.ofIdlePorts {s t : State} (hs : s.job.state = .idle) (hframe : unchangedBut [.geo, .ports, .feed] s t)
    (hports : ∀ h : Port, (s.ports.get h).InOrder s.now → (t.ports.get h).InOrder s.now) : KeepsRows s t := by
  obtain ⟨-, hnow, -⟩ := hframe .outside (by simp)
  refine .ofIdle (by rw [show t.job = s.job from hframe .job (by simp), hs]) (fun h => rowsOk_iff.mpr fun x => ?_) (hframe .rings (by simp))
  rw [hnow]
  exact hports x (rowsOk_iff.mp h x)

theorem ownSetPlane_keepsRows (plane : Byte) (width : BitVec 16) (add1 add2 add3 weakCap : Byte) (s : State) :
    KeepsRows s (ownSetPlane plane width add1 add2 add3 weakCap s).1 := by
  unfold ownSetPlane
  split
  · split
    · exact .refl s
    · next hj =>
      split
      · exact .refl s
      · exact .ofIdlePorts (not_not.mp hj) ((setGeo_frame s _).mono (by simp)) fun _ => id
  · exact .refl s

theorem ownSetSeam_keepsRows (entry left right shift : Byte) (pattern : BitVec 64) (s : State) :
    KeepsRows s (ownSetSeam entry left right shift pattern s).1 := by
  unfold ownSetSeam
  split
  · split
    · exact .refl s
    · next hj => exact .ofIdlePorts (not_not.mp hj) ((setGeo_frame s _).mono (by simp)) fun _ => id
  · exact .refl s

/-- The plane field of a Set Head leaves the rows of every port alone (R4). -/
theorem setHeadPort_inOrder {h : Port} {assigned : Bool} {s : State} (x : Port) (hx : (s.ports.get x).InOrder s.now) :
    ((setHeadPort h assigned s).ports.get x).InOrder s.now := by
  rcases setHeadPort_cases h assigned s with ⟨-, -, e⟩ | ⟨-, -, e⟩ | ⟨-, e⟩ <;> rw [e]
  · rw [portReady_eq, placeNotice_ports, State.updPort_ports, Table.get_upd]
    split
    · exact hx.congr (le_refl _) rfl fun _ => ⟨rfl, rfl, rfl, rfl⟩
    · exact hx
  · rw [portUnassigned_eq, placeNotice_ports, State.setGeo_ports, State.updPort_ports, Table.get_upd]
    split
    · exact hx.congr (le_refl _) rfl fun _ => ⟨rfl, rfl, rfl, rfl⟩
    · exact hx
  · exact hx

theorem ownSetHead_keepsRows (port plane : Byte) (first : BitVec 16) (rows : Byte) (nozzles : BitVec 16) (d f : Table 4 Nat)
    (window : BitVec 16) (policy : Byte) (s : State) : KeepsRows s (ownSetHead port plane first rows nozzles d f window policy s).1 := by
  unfold ownSetHead
  split
  · next h r _ _ =>
    split
    · exact .refl s
    · next hj =>
      exact .ofIdlePorts (not_not.mp hj) ((setGeo_frame s _).andThen (setHeadPort_frame h _ _) (by simp) (by simp)) fun x hx =>
        setHeadPort_inOrder (s := s.setGeo { s.geo with heads := s.geo.heads.put h r }) x hx
  · exact .refl s

theorem ownRestoreHead_keepsRows (port : Byte) (s : State) : KeepsRows s (ownRestoreHead port s).1 := by
  unfold ownRestoreHead
  split
  · exact .refl s
  · next h _ =>
    split
    · exact .refl s
    · next hj =>
      split
      · exact .refl s
      · split
        · exact .refl s
        · refine .ofIdlePorts (not_not.mp hj) (portRecovers_frame h s) fun x hx => ?_
          dsimp only
          rw [portRecovers_eq, placeNotice_ports, State.setGeo_ports, State.updPort_ports, Table.get_upd]
          split
          · refine .ofEmpty _ rfl fun k => ?_
            rw [get_dropLines_readied]
            exact ⟨rfl, rfl, rfl⟩
          · exact hx

end Sys2Proof.Machine
end

section
/-! # Every step keeps rows, rings and retire points in order (R113, R118, R120, R130, R132) -/

namespace Sys2Proof.Machine

/-! ### The start of a job (R150) -/

theorem participating_configured {s : State} {p : Plane} {r : Port × RowIx} (hr : r ∈ s.participating p) :
    s.geo.configured p = true ∧ s.geo.inUse r.1 = true := by
  have hplane : s.planeOf r.1 = some p := planeOf_of_mem_participating (k := r.2) hr
  constructor
  · have hon := planeOf_eq_some.mp hplane
    rw [Geometry.inUseOn, Bool.and_eq_true] at hon
    exact hon.2
  · by_contra hout
    rw [planeOf_eq_none.mpr (Bool.not_eq_true _ ▸ hout)] at hplane
    cases hplane

theorem startJob_ring (s : State) (p : Plane) : (startJob s).rings.get p
    = if s.geo.configured p then { s.rings.get p with frontier := -1, retire := -1 } else s.rings.get p := by
  simp only [startJob, setJobState, placeNotice_rings, State.setJob_rings, State.setPorts_rings, State.setRings_rings, Table.get_ofFun]
  rfl

theorem startJob_port (s : State) (h : Port) : (startJob s).ports.get h
    = if s.geo.inUse h then
        { s.ports.get h with rows := .ofFun (fun k => { (s.ports.get h).rows.get k with release := -1 }) }
      else s.ports.get h := by
  simp only [startJob, setJobState, placeNotice_ports, State.setJob_ports, State.setPorts_ports, Table.get_ofFun]
  rfl

/-- R150: of a port in use the release serials start again; its rows keep their place. -/
theorem startJob_row (s : State) (h : Port) (k : RowIx) : (startJob s).row h k
    = if s.geo.inUse h then { s.row h k with release := -1 } else s.row h k := by
  rw [State.row, startJob_port]
  split
  · rw [Table.get_ofFun]
    rfl
  · rfl

theorem startJob_keepsRows {s : State} (hj : s.job.state = .idle) : KeepsRows s (startJob s) := by
  have hframe := startJob_frame s
  have hgeo : (startJob s).geo = s.geo := hframe .geo (by simp)
  obtain ⟨-, hnow, -⟩ := hframe .outside (by simp)
  have hreports : ∀ {p : Plane} {r : Port × RowIx}, r ∈ (startJob s).participating p →
      ((startJob s).rings.get p).retire = -1 ∧ ((startJob s).row r.1 r.2).release = -1 := fun hr => by
    obtain ⟨hconfigured, huse⟩ := participating_configured hr
    rw [hgeo] at hconfigured huse
    rw [startJob_ring, if_pos hconfigured, startJob_row, if_pos huse]
    exact ⟨rfl, rfl⟩
  refine ⟨rowsOk_of_same hnow.ge fun h k => ?_, fun hs p => ⟨?_, fun _ r hr => ?_⟩, fun _ _ p => ?_, fun _ hne => absurd hj hne⟩
  · rw [startJob_port, startJob_row]
    split <;> exact ⟨rfl, rfl, rfl, rfl, rfl⟩
  · rw [startJob_ring]
    split
    · exact fun e _ => Int.lt_of_lt_of_le (by decide : (-1 : Int) < 0) (Int.natCast_nonneg _)
    · exact (hs p).1
  · obtain ⟨hretire, hrelease⟩ := hreports hr
    rw [hretire, hrelease]
  · rcases hnone : (startJob s).participating p with _ | ⟨r, rs⟩
    · exact .inl rfl
    · obtain ⟨hretire, hrelease⟩ := hreports (hnone ▸ List.mem_cons_self)
      exact .inr ⟨r, List.mem_cons_self, by rw [hretire, hrelease]⟩

theorem ownStartJob_keepsRows (s : State) : KeepsRows s (ownStartJob s).1 := by
  unfold ownStartJob
  split
  · exact .refl s
  · next hj =>
    split
    · exact .refl s
    · exact startJob_keepsRows (not_not.mp hj)

/-- R151: a stop goes to STOPPING, and with no placement left to IDLE. -/
theorem ownStopJob_keepsRows (s : State) : KeepsRows s (ownStopJob s).1 := by
  unfold ownStopJob
  split
  · exact .refl s
  · next hj =>
    dsimp only
    refine .ite (fun _ => (enterIdle_atRest _ _).keepsRows s) fun _ => ?_
    refine ((RowsAct.ofJob (x := { s.job with state := .stopping }) ?_ nofun).trans ((RowsAct.ofFrame (placeNotice_frame _ _)).trans
      (.ofFrame (stopComposer_frame _)))).keepsRows
    rw [not_not.mp hj]
    exact nofun

theorem ownAbort_atRest (s : State) : AtRest (ownAbort s).1 := by
  unfold ownAbort
  dsimp only
  exact enterIdle_atRest .abort s

/-! ### Requests (R171) -/

theorem handle_keepsRows (r : Request) (s : State) : KeepsRows s (handle r s).1 := by
  by_cases hb : requestBlocks r ⊆ [.place, .memory, .templates, .pool, .composer, .counters, .feed]
  · exact (RowsAct.ofFrame (handle_frame r s) hb).keepsRows
  · cases r
    case setPlane => exact ownSetPlane_keepsRows _ _ _ _ _ _ s
    case setHead => exact ownSetHead_keepsRows _ _ _ _ _ _ _ _ _ s
    case setSeam => exact ownSetSeam_keepsRows _ _ _ _ _ s
    case setNozzles => exact (ownSetNozzles_act _ _ _ _ _ s).keepsRows
    case restoreHead => exact ownRestoreHead_keepsRows _ s
    case setMotion => exact (ownSetMotion_act _ _ _ _ _ s).keepsRows
    case setRatio => exact (ownSetRatio_act _ _ s).keepsRows
    case setKeepWet => exact (ownSetKeepWet_act _ _ _ s).keepsRows
    case startJob => exact ownStartJob_keepsRows s
    case stopJob => exact ownStopJob_keepsRows s
    case abort => rw [show handle .abort = ownAbort from rfl]; exact (ownAbort_atRest s).keepsRows s
    case restart => rw [show handle .restart = ownRestart from rfl]; exact (ownRestart_atRest s).keepsRows s
    all_goals exact absurd (by simp [requestBlocks]) hb

/-- What follows a reply advances the part: a switch completed, or a placement (R11, R150). -/
theorem afterReply_act (r : Request) (x : Result) (s : State) : RowsAct s (afterReply r x s) := by
  have hswitch : ∀ port : Byte, RowsAct s (completeStaged port x s) := fun port => by
    unfold completeStaged
    split
    · split
      · exact .ite (fun _ => completeSwitch_act _ s) fun _ => .refl s
      · exact .refl s
    · exact .refl s
  unfold afterReply
  split
  · exact hswitch _
  · exact .ofFrame (placeContinuous_frame s)
  · exact .refl s

theorem serve_keepsRows (tag : Byte) (r : Request) (s : State) : KeepsRows s (serve tag r s) :=
  (handle_keepsRows r s).andThen ((RowsAct.ofFrame (placeReply_frame _ _ _ _)).trans (afterReply_act r _ _)).toAdvances

theorem takeRequest_keepsRows (s : State) : KeepsRows s (takeRequest s) := by
  have htaken : ∀ x : Feed, Advances s (s.setFeed x) := fun x => (RowsAct.ofFrame (setFeed_frame s x)).toAdvances
  unfold takeRequest
  split
  · dsimp only
    split
    · exact ((htaken _).trans (RowsAct.ofFrame (placeReply_frame _ _ _ _)).toAdvances).keepsRows
    · exact (serve_keepsRows _ _ _).after (htaken _)
  · exact .refl s

/-! ### Commands and steps -/

section

variable {s t : State} {event : State → State}

/-- What its event advances, a command on blocks advances. -/
theorem actOn_advances {blocks : List Nat} (hevent : Advances s (event s)) (h : actOn s blocks event = .next t) : Advances s t := by
  rcases actOn_cases h with ⟨-, rfl⟩ | ⟨-, rfl⟩
  · exact hevent.trans (RowsAct.ofFrame (finish_frame _)).toAdvances
  · exact .refl _

theorem act_keepsRows {can : Bool} (hevent : KeepsRows s (event s)) (h : act s can event = .next t) : KeepsRows s t := by
  rcases act_cases h with ⟨-, -, rfl⟩ | ⟨-, rfl⟩
  · exact hevent.andThen (RowsAct.ofFrame (finish_frame _)).toAdvances
  · exact .refl _

/-- What its event is to the rows, a guarded command is. -/
theorem act_rowsAct {can : Bool} (hevent : can = true → RowsAct s (event s)) (h : act s can event = .next t) : RowsAct s t := by
  rcases act_cases h with ⟨hcan, -, rfl⟩ | ⟨-, rfl⟩
  · exact (hevent hcan).trans (.ofFrame (finish_frame _))
  · exact .refl _

theorem actOn_rowsAct {blocks : List Nat} (hevent : RowsAct s (event s)) (h : actOn s blocks event = .next t) : RowsAct s t := by
  rcases actOn_cases h with ⟨-, rfl⟩ | ⟨-, rfl⟩
  · exact hevent.trans (.ofFrame (finish_frame _))
  · exact .refl _

end

/-- Both ends in IDLE, with the rings as they were. -/
theorem RowsAct.ofIdle {s t : State} (hs : s.job.state = .idle) (ht : t.job.state = .idle) (hhigh : s.motion.h ≤ t.motion.h)
    (hrows : rowsOk s → rowsOk t) (hrings : t.rings = s.rings) : RowsAct s t where
  idle := ⟨fun _ => hs, fun _ => ht⟩
  high := hhigh
  rows := hrows
  low := (KeepsRows.ofIdle ht hrows hrings).low
  least := (KeepsRows.ofIdle ht hrows hrings).least
  frontier p := by rw [hrings]
  retire _ hj := absurd hs hj
  drains p := by
    rw [ringDrains, hrings]
    exact ⟨rfl, List.Sublist.refl _⟩

/-- R127: a port goes OFFLINE with no job or with its head out of use. -/
theorem plainOffline_act {h : Port} {s : State} (hout : s.job.state = .idle ∨ s.planeOf h = none) :
    RowsAct s (setPortState h .offline (s.updPort h (fun q => { q with faultCount := 0, keepWet := q.keepWet.disarm }))) := by
  obtain ⟨t, ht⟩ : ∃ t, t = setPortState h .offline (s.updPort h (fun q => { q with faultCount := 0, keepWet := q.keepWet.disarm })) :=
    ⟨_, rfl⟩
  have hframe : unchangedBut [.ports, .feed] s t :=
    ht ▸ (updPort_frame s h _).andThen (setPortState_frame h .offline _) (by simp) (by simp)
  have hports : ∀ g, t.ports.get g = if h = g then { s.ports.get g with
      state := .offline, faultCount := 0, keepWet := (s.ports.get g).keepWet.disarm } else s.ports.get g := fun g => by
    rw [ht, setPortState, placeNotice_ports, State.updPort_ports, State.updPort_ports, Table.get_upd, Table.get_upd]
    split <;> rfl
  have hgeo : t.geo = s.geo := hframe .geo (by simp)
  have hjob : t.job = s.job := hframe .job (by simp)
  have hrings : t.rings = s.rings := hframe .rings (by simp)
  have hrow : ∀ g k, t.row g k = s.row g k := fun g k => by
    rw [State.row, hports]
    split <;> rfl
  obtain ⟨-, hnow, -⟩ := hframe .outside (by simp)
  have hrows : rowsOk s → rowsOk t := rowsOk_of_same hnow.ge fun g k => by
    rw [hrow, hports]
    split <;> exact ⟨rfl, rfl, rfl, rfl, rfl⟩
  rw [← ht]
  rcases hout with hj | hplane
  · exact .ofIdle hj (by rw [hjob, hj]) (le_of_eq (by rw [show t.motion = s.motion from hframe .motion (by simp)])) hrows hrings
  · refine .ofRings (by rw [hjob]) (le_of_eq (by rw [show t.motion = s.motion from hframe .motion (by simp)])) hrows
      (fun q => by rw [hrings]) fun q => .inl ⟨⟨fun r => ?_, fun r _ => by rw [hrow]⟩, by rw [hrings]; exact ⟨rfl, rfl, rfl⟩⟩
    have hplanes : t.planeOf r.1 = s.planeOf r.1 := planeOf_of_records (by rw [hgeo]) (by rw [hgeo]) r.1
    rw [show r = (r.1, r.2) from rfl, mem_participating, mem_participating, hplanes, hgeo, hports]
    split
    · next e => simp [← e, hplane]
    · rfl

theorem portOffline_act (h : Port) (s : State) : RowsAct s (portOffline h s) := by
  unfold portOffline
  split
  · next hj => exact plainOffline_act (.inl hj)
  · next hplane _ => exact plainOffline_act (.inr hplane)
  · next hplane _ => exact offlineInJob_act hplane

theorem loadDone_eq_some {s : State} {h : Port} {k : RowIx} {p : Plane} {serial block : Nat}
    (hd : s.loadDone h = some (k, p, serial, block)) : (s.row h k).load = .loading ∧ s.planeOf h = some p := by
  unfold State.loadDone at hd
  split at hd
  · next j q hj hq =>
    split at hd
    · split at hd
      · obtain ⟨rfl, rfl, -⟩ := by simpa using hd
        exact ⟨loadingRow_eq_some hj, hq⟩
      · cases hd
    · cases hd
  · cases hd

/-- R38, R39, R60, R127: a tick samples the inputs and counts the faults. -/
theorem tick_act (s : State) : RowsAct s (tick s) := by
  have hobserved : RowsAct s s.observed :=
    .ofReports .rfl (le_refl _) (rowsOk_of_same (Nat.le_succ _) fun _ _ => ⟨rfl, rfl, rfl, rfl, rfl⟩) rfl rfl (fun _ => rfl)
      (fun _ _ => rfl) rfl
  have hfilters : ∀ u : State, RowsAct u (if u.sampled then sampleFilters u else firstSample u) := fun u =>
    .ite (fun _ => .ofReports .rfl (le_refl _) id rfl rfl (fun _ => rfl) (fun _ _ => rfl) rfl)
      fun _ => .ofReports .rfl (le_refl _) id rfl rfl (fun _ => rfl) (fun _ _ => rfl) rfl
  have hfaults : ∀ u : State, RowsAct u (sampleFaults u) := fun u => by
    have hport : ∀ h, (sampleFaults u).ports.get h = { u.ports.get h with
        faultCount := ((u.ports.get h).sampleFault (u.pins.fault.get h)).faultCount } := fun h => by
      rw [sampleFaults_port, HeadPort.sampleFault_eq]
    have hrow : ∀ h k, (sampleFaults u).row h k = u.row h k := fun h k => by
      rw [State.row, hport]
      rfl
    refine .ofReports .rfl (le_refl _) (rowsOk_of_same (le_refl _) fun h k => ?_) rfl rfl (fun h => by rw [hport]) (fun h k => by rw [hrow]) rfl
    rw [hrow, hport]
    exact ⟨rfl, rfl, rfl, rfl, rfl⟩
  rw [tick_eq]
  exact hobserved.trans (.ite (fun _ => .refl _) fun _ => (hfilters s.observed).trans (hfaults _))

section

variable {s t : State}

theorem exec_encoderFilterAccept_act (h : exec .encoderFilterAccept s = .next t) : RowsAct s t :=
  act_rowsAct (fun _ => encoderAccept_act s) h

theorem exec_headFault_act {x : Port} (h : exec (.headFault x) s = .next t) : RowsAct s t :=
  act_rowsAct (fun _ => portOffline_act x s) h

theorem exec_loadGrant_act {x : Port} (h : exec (.loadGrant x) s = .next t) : RowsAct s t := act_rowsAct grantLoad_act h

theorem exec_loadComplete_act {x : Port} (h : exec (.loadComplete x) s = .next t) : RowsAct s t := by
  change execLoadComplete x s = .next t at h
  unfold execLoadComplete at h
  split at h
  · next hd =>
    obtain ⟨hload, hplane⟩ := loadDone_eq_some hd
    exact actOn_rowsAct (completeLoad_act hload hplane _ _) h
  · exact Host.Outcome.next.inj h ▸ .refl s

theorem exec_compositionComplete_advances (h : exec .compositionComplete s = .next t) : Advances s t := by
  change execCompositionComplete s = .next t at h
  unfold execCompositionComplete at h
  split at h
  · exact actOn_advances (completeComposition_advances _ s) h
  · exact Host.Outcome.next.inj h ▸ .refl s

end

theorem exec_keepsRows (c : Instr) (s t : State) (h : exec c s = .next t) : KeepsRows s t := by
  cases c
  case stopCompletion => exact act_keepsRows ((enterIdle_atRest .stopComplete s).keepsRows s) h
  case mapSwitchComplete => exact (act_rowsAct (fun _ => completeSwitch_act _ s) h).keepsRows
  case encoderFilterAccept => exact (exec_encoderFilterAccept_act h).keepsRows
  case pdFilterAccept => exact (RowsAct.ofFrame (exec_pdFilterAccept_frame h)).keepsRows
  case continuousPlacement => exact (RowsAct.ofFrame (exec_continuousPlacement_frame h)).keepsRows
  case headFault => exact (exec_headFault_act h).keepsRows
  case loadGrant => exact (exec_loadGrant_act h).keepsRows
  case loadComplete => exact (exec_loadComplete_act h).keepsRows
  case fire => exact (act_rowsAct (fun hc => fireNow_act (canFire_loaded hc)) h).keepsRows
  case fireWindowEnd x k =>
    exact (act_rowsAct (event := fun s => s.updRow x k (fun r => { r with window := none }))
      (fun _ => .ofRow s x k fun _ => ⟨rfl, rfl, rfl, rfl, rfl⟩) h).keepsRows
  case keepWetExpiry => exact (act_rowsAct (fun _ => keepWetExpire_act _ s) h).keepsRows
  case keepWetPulse => exact (act_rowsAct (fun _ => keepWetPulse_act _ s) h).keepsRows
  case composeBegin => exact (RowsAct.ofFrame (exec_composeBegin_frame h)).keepsRows
  case compositionComplete => exact (exec_compositionComplete_advances h).keepsRows
  case frameHeaderReceived => exact (RowsAct.ofFrame (exec_frameHeaderReceived_frame h)).keepsRows
  case frameReceived => exact (RowsAct.ofFrame (exec_frameReceived_frame h)).keepsRows
  case requestTaken => exact act_keepsRows (takeRequest_keepsRows s) h
  case patchFrame => exact (RowsAct.ofFrame (exec_patchFrame_frame h)).keepsRows
  case templateLineFrame => exact (RowsAct.ofFrame (exec_templateLineFrame_frame h)).keepsRows
  case templateLineWriteComplete => exact (RowsAct.ofFrame (exec_templateLineWriteComplete_frame h)).keepsRows
  case patchWriteComplete => exact (RowsAct.ofFrame (exec_patchWriteComplete_frame h)).keepsRows
  case channelDrained => exact (RowsAct.ofFrame (exec_channelDrained_frame h)).keepsRows
  case creditFrameSent => exact (RowsAct.ofFrame (exec_creditFrameSent_frame h)).keepsRows
  case frameSent => exact (RowsAct.ofFrame (exec_frameSent_frame h)).keepsRows
  case linkUp => exact (RowsAct.ofFrame (exec_linkUp_frame h)).keepsRows
  case trainingTimeout => exact (RowsAct.ofFrame (exec_trainingTimeout_frame h)).keepsRows
  case wordLockLoss => exact (RowsAct.ofFrame (exec_wordLockLoss_frame h)).keepsRows
  case resetAssert => exact Host.Outcome.next.inj h ▸ (reset_atRest (t := resetState s) rfl rfl rfl rfl).keepsRows s
  case resetRelease =>
    exact Host.Outcome.next.inj h ▸
      (RowsAct.ofReports (s := s) (t := { s with resetHeld := false }) .rfl (le_refl _) id rfl rfl (fun _ => rfl) (fun _ _ => rfl)
        rfl).keepsRows
  case powerOn => exact Host.Outcome.next.inj h ▸ (reset_atRest (t := powerOnState s) rfl rfl rfl rfl).keepsRows s
  all_goals exact act_keepsRows (serve_keepsRows _ _ s) h

/-- What a step is: the command at the front of the queue, the beginning of training, an event due, or a tick. -/
theorem step_cases {s t : State} (h : step s = .next t) :
    (∃ c rest, exec c { s with pending := rest } = .next t) ∨ (∃ x, t = s.setFeed x) ∨ t = tick s := by
  unfold step at h
  split at h
  · next c rest _ => exact .inl ⟨c, rest, h⟩
  · unfold idleStep at h
    split at h
    · exact .inr (.inl ⟨_, (Host.Outcome.next.inj h).symm⟩)
    · split at h
      · next c _ => exact .inl ⟨c, s.pending, h⟩
      · exact .inr (.inr (Host.Outcome.next.inj h).symm)

theorem step_keepsRows {s t : State} (h : step s = .next t) : KeepsRows s t := by
  rcases step_cases h with ⟨c, rest, hc⟩ | ⟨x, rfl⟩ | rfl
  · exact (exec_keepsRows c _ t hc).after (RowsAct.ofReports (s := s) (t := { s with pending := rest }) .rfl (le_refl _) id rfl rfl
      (fun _ => rfl) (fun _ _ => rfl) rfl).toAdvances
  · exact (RowsAct.ofFrame (setFeed_frame s x)).keepsRows
  · exact (tick_act s).keepsRows

end Sys2Proof.Machine
end

section
/-! # The serial of the compose position (R92, R105, R108)

Over consecutive pages each copy starts where the one before it ends, so the compose position's serial never falls, and the end of a
line raises it. -/

namespace Sys2Proof.Machine

/-- The serial line 0 of copy `d` has over a Page Queue, or the next serial where `d` is not queued. -/
def startSerial (nextSerial : Nat) (pages : List PageEntry) (d : Nat) : Nat :=
  match pages.find? (fun e => e.holds d) with
  | some e => e.baseOf d
  | none => nextSerial

/-- The first copy queued, or the next copy sequence. -/
def firstCopy (nextSequence : Nat) : List PageEntry → Nat
  | e :: _ => e.first
  | [] => nextSequence

/-- The first serial queued, or the next serial. -/
def firstSerial (nextSerial : Nat) : List PageEntry → Nat
  | e :: _ => e.base
  | [] => nextSerial

@[simp] theorem firstCopy_cons (nextSequence : Nat) (e : PageEntry) (rest : List PageEntry) : firstCopy nextSequence (e :: rest) = e.first := rfl

@[simp] theorem firstSerial_cons (nextSerial : Nat) (e : PageEntry) (rest : List PageEntry) : firstSerial nextSerial (e :: rest) = e.base := rfl

theorem pagesFollow_cons {nextSequence nextSerial : Nat} {e : PageEntry} {rest : List PageEntry} :
    pagesFollow nextSequence nextSerial (e :: rest) = true ↔ (1 ≤ e.copies ∧ 1 ≤ e.length
      ∧ e.first + e.copies = firstCopy nextSequence rest ∧ e.base + e.copies * e.length = firstSerial nextSerial rest)
      ∧ pagesFollow nextSequence nextSerial rest = true := by
  cases rest with
  | nil => simp [pagesFollow, firstCopy, firstSerial]
  | cons f rest => simp [pagesFollow, firstCopy, firstSerial]

theorem PageEntry.holds_iff {e : PageEntry} {d : Nat} : e.holds d = true ↔ e.first ≤ d ∧ d < e.first + e.copies := by
  simp [PageEntry.holds]

section

variable {e : PageEntry} {rest pages : List PageEntry} {nextSequence nextSerial d : Nat}

theorem startSerial_held (h : e.holds d = true) : startSerial nextSerial (e :: rest) d = e.baseOf d := by
  simp only [startSerial, List.find?_cons_of_pos (p := fun e => PageEntry.holds e d) h]

theorem startSerial_notHeld (h : e.holds d = false) : startSerial nextSerial (e :: rest) d = startSerial nextSerial rest d := by
  simp only [startSerial, List.find?_cons_of_neg (p := fun e => PageEntry.holds e d) (Bool.eq_false_iff.mp h)]

theorem startSerial_first (h : pagesFollow nextSequence nextSerial pages = true) :
    startSerial nextSerial pages (firstCopy nextSequence pages) = firstSerial nextSerial pages := by
  cases pages with
  | nil => rfl
  | cons e rest =>
    obtain ⟨⟨hcopies, -⟩, -⟩ := pagesFollow_cons.mp h
    rw [firstCopy_cons, startSerial_held (PageEntry.holds_iff.mpr ⟨le_refl _, by omega⟩)]
    simp [PageEntry.baseOf]

/-- A queued copy has an entry, and the next copy starts where it ends. -/
theorem startSerial_succ (h : pagesFollow nextSequence nextSerial pages = true) (hfirst : firstCopy nextSequence pages ≤ d)
    (hd : d < nextSequence) : ∃ e, pages.find? (fun e => e.holds d) = some e
      ∧ startSerial nextSerial pages (d + 1) = startSerial nextSerial pages d + e.length := by
  induction pages with
  | nil => exact absurd hd (not_lt.mpr hfirst)
  | cons e rest ih =>
    obtain ⟨⟨hcopies, hlength, hcopy, hserial⟩, hrest⟩ := pagesFollow_cons.mp h
    rw [firstCopy_cons] at hfirst
    by_cases hheld : d < e.first + e.copies
    · have hin := PageEntry.holds_iff.mpr ⟨hfirst, hheld⟩
      have hstep : (d + 1 - e.first) * e.length = (d - e.first) * e.length + e.length := by
        rw [Nat.succ_sub hfirst, Nat.succ_mul]
      refine ⟨e, List.find?_cons_of_pos hin, ?_⟩
      rw [startSerial_held hin, PageEntry.baseOf]
      by_cases hlast : d + 1 < e.first + e.copies
      · rw [startSerial_held (PageEntry.holds_iff.mpr ⟨by omega, hlast⟩), PageEntry.baseOf, hstep]
        omega
      · have hend : d + 1 = firstCopy nextSequence rest := by omega
        have hcount : d + 1 - e.first = e.copies := by omega
        rw [startSerial_notHeld (Bool.eq_false_iff.mpr fun hn => hlast (PageEntry.holds_iff.mp hn).2), hend, startSerial_first hrest,
          ← hserial, ← hcount, hstep]
        omega
    · have hout : ∀ i, d ≤ i → e.holds i = false := fun i hi =>
        Bool.eq_false_iff.mpr fun hn => hheld (by have := (PageEntry.holds_iff.mp hn).2; omega)
      obtain ⟨f, hf, hnext⟩ := ih hrest (by omega)
      refine ⟨f, (List.find?_cons_of_neg (p := fun e => PageEntry.holds e d) (Bool.eq_false_iff.mp (hout d (le_refl _)))).trans hf, ?_⟩
      rw [startSerial_notHeld (hout _ (Nat.le_succ d)), startSerial_notHeld (hout d (le_refl _)), hnext]

theorem firstCopy_le (h : pagesFollow nextSequence nextSerial pages = true) : firstCopy nextSequence pages ≤ nextSequence := by
  induction pages with
  | nil => exact le_refl _
  | cons e rest ih =>
    obtain ⟨⟨-, -, hcopy, -⟩, hrest⟩ := pagesFollow_cons.mp h
    have := ih hrest
    rw [firstCopy_cons]
    omega

/-- A copy that has an entry is queued. -/
theorem copy_lt_of_entry (h : pagesFollow nextSequence nextSerial pages = true) {e : PageEntry}
    (he : pages.find? (fun e => e.holds d) = some e) : d < nextSequence := by
  induction pages with
  | nil => cases he
  | cons f rest ih =>
    obtain ⟨⟨-, -, hcopy, -⟩, hrest⟩ := pagesFollow_cons.mp h
    by_cases hf : f.holds d = true
    · have := (PageEntry.holds_iff.mp hf).2
      have := firstCopy_le hrest
      omega
    · exact ih hrest (by rwa [List.find?_cons_of_neg (p := fun e => PageEntry.holds e d) hf] at he)

/-- A later copy starts at or past the end of an earlier one. -/
theorem startSerial_later (h : pagesFollow nextSequence nextSerial pages = true) (hfirst : firstCopy nextSequence pages ≤ d)
    {e : PageEntry} (he : pages.find? (fun e => e.holds d) = some e) {d' : Nat} (hlt : d < d') (hd' : d' ≤ nextSequence) :
    startSerial nextSerial pages d + e.length ≤ startSerial nextSerial pages d' := by
  induction d', hlt using Nat.le_induction with
  | base =>
    obtain ⟨f, hf, hnext⟩ := startSerial_succ h hfirst hd'
    obtain rfl : f = e := Option.some.inj (hf.symm.trans he)
    exact hnext.ge
  | succ d' hlt ih =>
    obtain ⟨f, -, hnext⟩ := startSerial_succ h (d := d') (by omega) (by omega)
    have := ih (by omega)
    omega

end

/-! ### The Composer -/

/-- The part of `composerOk` about the compose position (R92, R105). -/
structure Composer.Placed (c : Composer) : Prop where
  follow : pagesFollow c.nextSequence c.nextSerial c.pages = true
  front : c.front ≤ c.copy
  bound : c.copy ≤ c.nextSequence
  start : c.entryOf c.copy = none → c.line = 0
  within : ∀ e ∈ c.entryOf c.copy, c.line < e.length

theorem placed_of_composerOk {s : State} (h : composerOk s) : s.composer.Placed := by
  obtain ⟨h1, h2, h3, h4, h5, -⟩ := h
  exact ⟨h1, h2, h3, h4, h5⟩

theorem Composer.front_eq (c : Composer) : c.front = firstCopy c.nextSequence c.pages := by
  unfold Composer.front
  cases c.pages <;> rfl

theorem Composer.position_eq {c : Composer} (h : c.entryOf c.copy = none → c.line = 0) :
    c.position = startSerial c.nextSerial c.pages c.copy + c.line := by
  have hentry : startSerial c.nextSerial c.pages c.copy
      = match c.entryOf c.copy with | some e => e.baseOf c.copy | none => c.nextSerial := rfl
  rw [hentry, Composer.position]
  cases he : c.entryOf c.copy with
  | some e => rfl
  | none => rw [h he, Nat.add_zero]

/-- The Composer goes on: its position's serial does not fall, and no composition begins. -/
def Composer.GoesOn (c c' : Composer) : Prop := c.position ≤ c'.position ∧ (c'.flight = none ∨ c'.flight = c.flight)

theorem Composer.GoesOn.refl (c : Composer) : c.GoesOn c := ⟨le_refl _, .inr rfl⟩

theorem Composer.GoesOn.ofEq {c c' : Composer} (h : c' = c) : c.GoesOn c' := h ▸ .refl c

/-- A composition abandoned leaves the compose position (R109, R140). -/
theorem Composer.GoesOn.abandon (c : Composer) : c.GoesOn { c with flight := none } := ⟨le_refl _, .inl rfl⟩

/-- The compose position is found from the pages, the next serial, the copy and the line. -/
theorem Composer.position_congr {c c' : Composer} (hpages : c'.pages = c.pages) (hserial : c'.nextSerial = c.nextSerial)
    (hcopy : c'.copy = c.copy) (hline : c'.line = c.line) : c'.position = c.position := by
  simp only [Composer.position, Composer.entryOf, hpages, hserial, hcopy, hline]

theorem Composer.slide_position (c : Composer) : c.slide.position = c.position := Composer.position_congr rfl rfl rfl rfl

/-- R107: the end of a composition raises the compose position. -/
theorem Composer.advance_position {c : Composer} (h : c.Placed) {e : PageEntry} (he : c.entryOf c.copy = some e) :
    c.position < c.advance.position ∧ c.advance.flight = none := by
  have hline := h.within e he
  have hnow := Composer.position_eq h.start
  rw [advance_eq he]
  split
  · next hlast =>
    have hcopy := copy_lt_of_entry h.follow he
    have hnext := startSerial_later h.follow (c.front_eq ▸ h.front) he (Nat.lt_add_one _) hcopy
    refine ⟨?_, rfl⟩
    rw [hnow, Composer.slide_position, Composer.position_eq fun _ => rfl]
    dsimp only
    omega
  · refine ⟨?_, rfl⟩
    rw [hnow, Composer.position_eq fun hn => by
      rw [show ({ c with line := c.line + 1, flight := none } : Composer).entryOf _ = c.entryOf c.copy from rfl, he] at hn
      cases hn]
    dsimp only
    omega

/-- Of the copies past a retired one, the Page Queue finds what it found (R95). -/
theorem find_dropRetired {pages : List PageEntry} {copy d : Nat} (hd : copy < d) :
    (if (∃ e ∈ pages.head?, e.first + e.copies = copy + 1) then pages.drop 1 else pages).find? (fun e => e.holds d)
      = pages.find? (fun e => e.holds d) := by
  split
  · next h =>
    obtain ⟨e, he, hend⟩ := h
    cases pages with
    | nil => rfl
    | cons x xs =>
      obtain rfl : x = e := by simpa using he
      refine (List.find?_cons_of_neg (p := fun e => PageEntry.holds e d) fun hn => ?_).symm
      have := (PageEntry.holds_iff.mp hn).2
      omega
  · rfl

/-- R95, R108: a retirement of a queued copy leaves the compose position at or past where it was. -/
theorem copyRetired_goesOn {s : State} {copy : Nat} (h : s.composer.Placed) (hcopy : copy < s.composer.nextSequence) :
    s.composer.GoesOn (copyRetired copy s).composer := by
  obtain ⟨hpages, -, hserial, hrest⟩ := copyRetired_result copy s
  have hfind : ∀ d, copy < d → (copyRetired copy s).composer.entryOf d = s.composer.entryOf d := fun d hd => by
    rw [Composer.entryOf, hpages, find_dropRetired hd]
    rfl
  split at hrest
  · next hle =>
    obtain ⟨hc, hl, hflight, -⟩ := hrest
    obtain ⟨e, he, -⟩ := startSerial_succ h.follow (s.composer.front_eq ▸ h.front) (hle.trans_lt hcopy)
    have hline := h.within e he
    have hlater := startSerial_later h.follow (s.composer.front_eq ▸ h.front) he (Nat.lt_add_one_of_le hle) hcopy
    have hposition : (copyRetired copy s).composer.position = startSerial s.composer.nextSerial s.composer.pages (copy + 1) := by
      rw [Composer.position_eq fun _ => hl, hl, hc, hserial, startSerial, startSerial, ← Composer.entryOf, hfind _ (Nat.lt_add_one _)]
      rfl
    refine ⟨?_, .inl hflight⟩
    rw [Composer.position_eq h.start, hposition]
    omega
  · next hgt =>
    obtain ⟨hc, hl, hflight, -⟩ := hrest
    refine ⟨le_of_eq ?_, .inr hflight⟩
    simp only [Composer.position, hc, hfind _ (not_le.mp hgt), hl, hserial]

/-- R94: a page joins behind the compose position. -/
theorem withPage_goesOn {c : Composer} (h : c.Placed) {e : PageEntry} (hfirst : e.first = c.nextSequence) (hbase : e.base = c.nextSerial) :
    c.GoesOn (c.withPage e) := by
  have hentry : (c.withPage e).entryOf c.copy = (c.entryOf c.copy).or (if e.holds c.copy then some e else none) := by
    simp [Composer.withPage, Composer.slide, Composer.entryOf, List.find?_append]
  refine ⟨le_of_eq ?_, .inr rfl⟩
  change c.position = match (c.withPage e).entryOf c.copy with
    | some e => e.base + (c.copy - e.first) * e.length + c.line
    | none => c.nextSerial + e.copies * e.length
  rw [hentry]
  unfold Composer.position
  cases hc : c.entryOf c.copy with
  | some x => rfl
  | none =>
    have hend : c.copy = c.nextSequence := by
      by_contra hne
      obtain ⟨x, hx, -⟩ := startSerial_succ h.follow (c.front_eq ▸ h.front) (lt_of_le_of_ne h.bound hne)
      rw [Composer.entryOf, hx] at hc
      cases hc
    have hline := h.start hc
    by_cases hholds : e.holds c.copy = true
    · rw [Option.none_or, if_pos hholds]
      simp [hfirst, hbase, hend, hline]
    · have hnone : e.copies = 0 := by
        by_contra hcopies
        exact hholds (PageEntry.holds_iff.mpr ⟨by omega, by omega⟩)
      simp [hholds, hnone]

end Sys2Proof.Machine
end

section
/-! # The fill of the rings (R104, R107, R113 to R115)

Every entry of a ring is below the compose position, which goes on while rings drain; a line committed is at the position its
composition leaves behind, in a ring with room. -/

namespace Sys2Proof.Machine

theorem serialsRise_iff {l : List RingEntry} : serialsRise l = true ↔ l.Pairwise (fun a b => a.serial < b.serial) := by
  induction l with
  | nil => simp [serialsRise]
  | cons e rest ih =>
    cases rest with
    | nil => simp [serialsRise]
    | cons f rest =>
      rw [serialsRise, Bool.and_eq_true, decide_eq_true_eq, ih, List.pairwise_cons (a := e)]
      refine and_congr_left fun hrest => ⟨fun hef g hg => ?_, fun h => h f List.mem_cons_self⟩
      rcases List.mem_cons.mp hg with rfl | hg
      · exact hef
      · exact hef.trans ((List.pairwise_cons.mp hrest).1 g hg)

/-- The ring of a plane rises below `position`, within `depth` (R113). -/
def Ring.Filled (g : Ring) (depth position : Nat) : Prop :=
  g.entries.Pairwise (fun a b => a.serial < b.serial) ∧ g.entries.length ≤ depth ∧ ∀ e ∈ g.entries, e.serial < position

/-- Each block a composition writes is that at the write position of a ring with room (R104, R114). -/
def State.roomFor (s : State) (f : Composition) : Prop :=
  ∀ x ∈ f.targets, (s.rings.get x.1).entries.length < s.memory.depth x.1
    ∧ x.2 = s.memory.ringBase x.1 + (s.rings.get x.1).writePosition

theorem ringsFilled_iff {s : State} : ringsFilled s ↔
    (∀ p : Plane, (s.rings.get p).Filled (s.memory.depth p) s.composer.position) ∧ ∀ f ∈ s.composer.flight, s.roomFor f := by
  simp only [ringsFilled, serialsRise_iff]
  rfl

theorem ringBase_congr {m n : FrameMemory} (h : n.plan = m.plan) (p : Plane) : n.ringBase p = m.ringBase p := by
  rw [FrameMemory.ringBase, FrameMemory.ringBase, h]

theorem Ring.Filled.drain {g g' : Ring} {depth position position' : Nat} (h : g.Filled depth position)
    (hentries : g'.entries.Sublist g.entries) (hposition : position ≤ position') : g'.Filled depth position' := by
  obtain ⟨hrise, hlength, hbelow⟩ := h
  exact ⟨hrise.sublist hentries, hentries.length_le.trans hlength, fun e he => (hbelow e (hentries.subset he)).trans_le hposition⟩

/-- R115: a line at the compose position joins a ring with room. -/
theorem Ring.Filled.accept {g : Ring} {depth position position' : Nat} (h : g.Filled depth position) (hroom : g.entries.length < depth)
    (hposition : position < position') : (g.accept depth position).Filled depth position' := by
  obtain ⟨hrise, -, hbelow⟩ := h
  refine ⟨List.pairwise_append.mpr ⟨hrise, List.pairwise_singleton _ _, fun a ha b hb => ?_⟩, ?_, fun e he => ?_⟩
  · rw [List.mem_singleton.mp hb]
    exact hbelow a ha
  · simpa [Ring.accept] using hroom
  · rcases List.mem_append.mp he with he | he
    · exact (hbelow e he).trans hposition
    · rw [List.mem_singleton.mp he]
      exact hposition

/-- Rings that drain behind a Composer that goes on, over the same plan, stay filled. -/
theorem ringsFilled_of_drains {s t : State} (hplan : t.memory.plan = s.memory.plan) (hdrains : ∀ q, ringDrains q s t)
    (hcomposer : s.composer.GoesOn t.composer) (h : ringsFilled s) : ringsFilled t := by
  obtain ⟨hfilled, hroom⟩ := ringsFilled_iff.mp h
  obtain ⟨hposition, hflight⟩ := hcomposer
  refine ringsFilled_iff.mpr ⟨fun p => ?_, fun f hf x hx => ?_⟩
  · rw [depth_congr hplan]
    exact (hfilled p).drain (hdrains p).2 hposition
  · have hf' : f ∈ s.composer.flight := by
      rcases hflight with hnone | hsame
      · rw [hnone] at hf
        cases hf
      · exact hsame ▸ hf
    obtain ⟨hlength, hblock⟩ := hroom f hf' x hx
    obtain ⟨hwrite, hentries⟩ := hdrains x.1
    rw [depth_congr hplan, ringBase_congr hplan, hwrite]
    exact ⟨hentries.length_le.trans_lt hlength, hblock⟩

theorem ringDrains_of_eq {s t : State} (h : t.rings = s.rings) (q : Plane) : ringDrains q s t := by
  rw [ringDrains, h]
  exact ⟨rfl, List.Sublist.refl _⟩

/-- An event that leaves the frame memory, the Composer and the rings alone. -/
theorem ringsFilled_of_frame {bs : List Block} {s t : State} (h : unchangedBut bs s t)
    (hb : bs ⊆ [.outside, .job, .geo, .motion, .place, .templates, .pool, .ports, .counters, .feed]) (hs : ringsFilled s) :
    ringsFilled t := by
  have hframe := h.mono hb
  exact ringsFilled_of_drains (by rw [show t.memory = s.memory from hframe .memory (by simp)])
    (ringDrains_of_eq (hframe .rings (by simp))) (.ofEq (hframe .composer (by simp))) hs

theorem ringsFilled_finish {s : State} (h : ringsFilled s) : ringsFilled (finish s) := ringsFilled_of_frame (finish_frame s) (by simp) h

/-- Rows' events stay behind the Composer. -/
theorem ringsFilled_of_act {s t : State} (h : RowsAct s t) (hmemory : t.memory = s.memory) (hcomposer : s.composer.GoesOn t.composer)
    (hs : ringsFilled s) : ringsFilled t :=
  ringsFilled_of_drains (by rw [hmemory]) h.drains hcomposer hs

/-! ### The Composer at the encoder's and the ports' events -/

theorem raiseHalt_goesOn (first : HaltCause) (cause : JobCause) (s : State) : s.composer.GoesOn (raiseHalt first cause s).composer := by
  by_cases h : s.job.state = .running ∨ s.job.state = .stopping
  · rw [raiseHalt_of_active first cause h, enterHalted_composer, placeNotice_composer]
    exact .abandon _
  · rw [raiseHalt_of_inactive first cause h]
    split
    · rw [bump_composer]
      exact .refl _
    · exact .refl _

theorem portOffline_goesOn (h : Port) (s : State) : s.composer.GoesOn (portOffline h s).composer := by
  have hplain : (setPortState h .offline (s.updPort h (fun q => { q with faultCount := 0, keepWet := q.keepWet.disarm }))).composer
      = s.composer := by rw [setPortState, placeNotice_composer]; rfl
  unfold portOffline
  split
  · exact .ofEq hplain
  · exact .ofEq hplain
  · next p _ _ =>
    have hkept : (headOffline h p s).composer = s.composer := headOffline_frame h p s .composer (by simp)
    rw [offlineInJob_eq, ← hkept]
    split
    · exact raiseHalt_goesOn _ _ _
    · exact .refl _

/-- The part of `placesOk` the Composer meets: each placement is of a queued copy. -/
def placedCopies (s : State) : Prop := ∀ q ∈ s.place.list, q.copy < s.composer.nextSequence

theorem placementTick_goesOn {s : State} (hplaced : s.composer.Placed) (hcopies : placedCopies s) :
    s.composer.GoesOn (placementTick s).composer := by
  unfold placementTick
  split
  · split
    · next q hq =>
      have hmem : q ∈ s.place.list := by
        unfold PlacementUnit.retiring at hq
        split at hq
        · next x xs hl =>
          split at hq
          · obtain rfl := Option.some.inj hq
            rw [hl]
            exact List.mem_cons_self
          · cases hq
        · cases hq
      obtain ⟨u, hu⟩ : ∃ u, u = placeNotice (.copyPrinted q.copy)
        (bump .copiesPrinted (s.setPlace { s.place with list := s.place.list.drop 1 })) := ⟨_, rfl⟩
      have hcomposer : u.composer = s.composer := by rw [hu, placeNotice_composer, bump_composer]; rfl
      rw [show retirePlacement q s = copyRetired q.copy u from hu ▸ rfl, ← hcomposer]
      exact copyRetired_goesOn (hcomposer ▸ hplaced) (hcomposer ▸ hcopies q hmem)
    · exact .refl _
  · exact .refl _

theorem forwardBoundary_goesOn {s : State} (hplaced : s.composer.Placed) (hcopies : placedCopies s) :
    s.composer.GoesOn (forwardBoundary s).composer := by
  unfold forwardBoundary
  dsimp only
  split
  · rw [show (rowsTick _).composer = _ from rowsTick_frame _ .composer (by simp)]
    exact placementTick_goesOn (s := s.setMotion (s.motion.printTick (s.motion.p + 1) s.now)) hplaced hcopies
  · rw [bump_composer]
    exact .refl _

theorem reverseBoundary_goesOn (s : State) : s.composer.GoesOn (reverseBoundary s).composer := by
  have hkept : ∀ m : Motion, (bump .reTravelBoundaries (s.setMotion m)).composer = s.composer := fun m => by rw [bump_composer]; rfl
  unfold reverseBoundary
  dsimp only
  rw [← hkept (s.motion.reTravel (s.motion.p - 1) s.now)]
  split
  · exact raiseHalt_goesOn _ _ _
  · exact .refl _

theorem accumulateForward_goesOn {s : State} (hplaced : s.composer.Placed) (hcopies : placedCopies s) :
    s.composer.GoesOn (accumulateForward s).composer := by
  unfold accumulateForward
  split
  · next r _ =>
    dsimp only
    split
    · exact forwardBoundary_goesOn (s := s.setMotion { s.motion with acc := s.motion.acc + r.n - r.m }) hplaced hcopies
    · exact .refl s.composer
  · exact .refl s.composer

theorem accumulateReverse_goesOn (s : State) : s.composer.GoesOn (accumulateReverse s).composer := by
  unfold accumulateReverse
  split
  · next r _ =>
    split
    · exact reverseBoundary_goesOn (s.setMotion { s.motion with acc := s.motion.acc + r.m - r.n })
    · exact .refl s.composer
  · exact .refl s.composer

theorem forwardCount_goesOn {s : State} (hplaced : s.composer.Placed) (hcopies : placedCopies s) :
    s.composer.GoesOn (forwardCount s).composer := by
  unfold forwardCount
  dsimp only
  split
  · exact .refl s.composer
  · exact accumulateForward_goesOn (s := s.setMotion { s.motion with rawCount := s.motion.rawCount + 1 }) hplaced hcopies

theorem reverseCount_goesOn (s : State) : s.composer.GoesOn (reverseCount s).composer := by
  unfold reverseCount
  dsimp only
  split
  · exact .refl s.composer
  · exact accumulateReverse_goesOn (s.setMotion { s.motion with rawCount := s.motion.rawCount - 1 })

theorem encoderAccept_goesOn {s : State} (hplaced : s.composer.Placed) (hcopies : placedCopies s) :
    s.composer.GoesOn (encoderAccept s).composer := by
  rw [encoderAccept_eq]
  split
  · exact forwardCount_goesOn (s := s.setMotion s.motion.taken) hplaced hcopies
  · exact reverseCount_goesOn (s.setMotion s.motion.taken)
  · exact .ofEq (bump_composer _ _)

/-! ### A composition begins and completes (R104, R105, R107) -/

theorem beginLine_ringsFilled {s : State} (hc : s.canCompose = true) (h : ringsFilled s) : ringsFilled (beginLine s) := by
  obtain ⟨hfilled, -⟩ := ringsFilled_iff.mp h
  have hroom : ∀ p ∈ s.geo.configuredPlanes, (s.rings.get p).entries.length < s.memory.depth p := by
    have hblock : s.composeBlock = .none := by
      simp only [State.canCompose, Bool.and_eq_true, beq_iff_eq] at hc
      obtain ⟨⟨-, hblock⟩, -⟩ := hc
      exact hblock
    have hfull : s.geo.configuredPlanes.find? s.ringFull = none := by
      unfold State.composeBlock at hblock
      dsimp only at hblock
      generalize s.geo.configuredPlanes.find? s.ringFull = full at hblock ⊢
      cases full with
      | none => rfl
      | some p => split_ifs at hblock
    exact fun p hp => by simpa [State.ringFull] using List.find?_eq_none.mp hfull p hp
  refine ringsFilled_iff.mpr ⟨hfilled, fun f hf x hx => ?_⟩
  rw [beginLine_composer] at hf
  obtain rfl := Option.some.inj hf
  obtain ⟨p, hp, rfl⟩ := List.mem_map.mp hx
  exact ⟨hroom p hp, rfl⟩

theorem configuredPlanes_nodup (g : Geometry) : g.configuredPlanes.Nodup :=
  List.Nodup.filter _ (by decide)

theorem writeLines_plan (f : Composition) (targets : List (Plane × Nat)) (s : State) :
    (targets.foldl (writeLine f) s).memory.plan = s.memory.plan :=
  foldl_keeps (P := fun u => u.memory.plan = s.memory.plan) (fun u x hu => by rw [writeLine_memory]; exact hu) targets rfl

theorem completeComposition_ringsFilled {s : State} {f : Composition} (hc : composerOk s) (hf : s.composer.flight = some f)
    (h : ringsFilled s) : ringsFilled (completeComposition f s) := by
  obtain ⟨hfilled, hroom⟩ := ringsFilled_iff.mp h
  have hplaced := placed_of_composerOk hc
  obtain ⟨-, -, -, -, -, -, -, hflight⟩ := hc
  obtain ⟨-, htargets, hentry⟩ := hflight f hf
  obtain ⟨e, he⟩ := Option.isSome_iff_exists.mp hentry
  obtain ⟨hlater, hnone⟩ := Composer.advance_position hplaced he
  have hserial : s.composer.serial = s.composer.position := by rw [serial_eq he, Composer.position, he]
  obtain ⟨u, hu⟩ : ∃ u, u = f.targets.foldl (writeLine f) s := ⟨_, rfl⟩
  have hframe : unchangedBut [.memory, .counters, .feed] s u := hu ▸ unchangedBut_foldl (writeLine_frame f) f.targets s
  have hplan : u.memory.plan = s.memory.plan := hu ▸ writeLines_plan f f.targets s
  have hcomposer : u.composer = s.composer := hframe .composer (by simp)
  have hrings : u.rings = s.rings := hframe .rings (by simp)
  have hcommits : f.targets.foldl (fun u t => commitTo u.composer.serial t.1 u) u
      = s.geo.configuredPlanes.foldl (fun u p => commitTo s.composer.position p u) u := by
    rw [foldl_commitTo f.targets (serial := s.composer.position) (by rw [hcomposer, hserial]), htargets]
  obtain ⟨v, hv⟩ : ∃ v, v = s.geo.configuredPlanes.foldl (fun u p => commitTo s.composer.position p u) u := ⟨_, rfl⟩
  have hcommitted : LinesCommitted s.composer.position s.geo.configuredPlanes u v := hv ▸ linesCommitted _ u (configuredPlanes_nodup _)
  have hmemory : v.memory.plan = s.memory.plan := by
    rw [show v.memory = u.memory from hcommitted.frame .memory (by simp), hplan]
  have hvcomposer : v.composer = s.composer := (hcommitted.frame .composer (by simp)).trans hcomposer
  have hresult : (completeComposition f s).rings = v.rings ∧ (completeComposition f s).memory = v.memory
      ∧ (completeComposition f s).composer = s.composer.advance := by
    simp only [completeComposition, ← hu, hcommits, ← hv, State.setComposer_composer, State.setPool_composer, hvcomposer]
    simp
  obtain ⟨hr, hm, hk⟩ := hresult
  refine ringsFilled_iff.mpr ⟨fun p => ?_, by rw [hk, hnone]; exact nofun⟩
  rw [hr, hm, hk, depth_congr hmemory, hcommitted.rings p, hrings, depth_congr hplan]
  split
  · next hp =>
    obtain ⟨x, hx, rfl⟩ := List.mem_map.mp (htargets ▸ hp.1)
    exact (hfilled x.1).accept (hroom f hf x hx).1 hlater
  · exact (hfilled p).drain (List.Sublist.refl _) hlater.le

end Sys2Proof.Machine
end

section
/-! # Every step keeps the rings filled behind the Composer (R113, R114) -/

namespace Sys2Proof.Machine

/-! ### Requests -/

theorem startJob_ringsFilled {s : State} (h : ringsFilled s) : ringsFilled (startJob s) := by
  have hframe := startJob_frame s
  refine ringsFilled_of_drains (by rw [show (startJob s).memory = s.memory from hframe .memory (by simp)]) (fun q => ?_)
    (.ofEq (hframe .composer (by simp))) h
  rw [ringDrains, startJob_ring]
  split <;> exact ⟨rfl, List.Sublist.refl _⟩

theorem ownStartJob_ringsFilled {s : State} (h : ringsFilled s) : ringsFilled (ownStartJob s).1 := by
  unfold ownStartJob
  split
  · exact h
  · split
    · exact h
    · exact startJob_ringsFilled h

theorem ownStopJob_ringsFilled {s : State} (h : ringsFilled s) : ringsFilled (ownStopJob s).1 := by
  unfold ownStopJob
  split
  · exact h
  · dsimp only
    split
    · exact (enterIdle_atRest _ _).ringsFilled
    · have hstop : (stopComposer (setJobState .stopping .stop s)).composer = { s.composer with flight := none } := by
        simp [stopComposer, setJobState]
      have hframe := (setJobState_frame .stopping .stop s).andThen (stopComposer_frame _) (ds := [.job, .composer, .feed]) (by simp)
        (by simp)
      exact ringsFilled_of_drains (by rw [show State.memory _ = s.memory from hframe .memory (by simp)])
        (ringDrains_of_eq (hframe .rings (by simp))) (hstop ▸ .abandon _) h

/-- R79: in IDLE, where a plan can be set, the rings are empty and nothing is in flight (R153). -/
theorem ownSetMemoryPlan_ringsFilled {slots d0 d1 d2 d3 d4 d5 : BitVec 16} {s : State} (hidle : idleOk s) (h : ringsFilled s) :
    ringsFilled (ownSetMemoryPlan slots d0 d1 d2 d3 d4 d5 s).1 := by
  have hframe := ownSetMemoryPlan_frame slots d0 d1 d2 d3 d4 d5 s
  by_cases hj : s.job.state = .idle
  · obtain ⟨-, hflight, hrings, -⟩ := hidle hj
    have hr : (ownSetMemoryPlan slots d0 d1 d2 d3 d4 d5 s).1.rings = s.rings := hframe .rings (by simp)
    have hc : (ownSetMemoryPlan slots d0 d1 d2 d3 d4 d5 s).1.composer = s.composer := hframe .composer (by simp)
    refine ringsFilled_iff.mpr ⟨fun p => ?_, by rw [hc, hflight]; exact nofun⟩
    rw [hr, hrings p]
    exact ⟨List.Pairwise.nil, Nat.zero_le _, fun e he => absurd he List.not_mem_nil⟩
  · have hself : (ownSetMemoryPlan slots d0 d1 d2 d3 d4 d5 s).1 = s := by
      unfold ownSetMemoryPlan
      split
      · rfl
      · rw [if_pos hj]
    rw [hself]
    exact h

/-- A Composer changed and nothing else. -/
theorem ringsFilled_setComposer {s : State} {c : Composer} (hc : s.composer.GoesOn c) (h : ringsFilled s) :
    ringsFilled (s.setComposer c) :=
  ringsFilled_of_drains (s := s) rfl (ringDrains_of_eq rfl) hc h

theorem ownQueuePage_ringsFilled {template : Byte} {copies length gap top : BitVec 16} {source patched : Byte} {s : State}
    (hplaced : s.composer.Placed) (h : ringsFilled s) :
    ringsFilled (ownQueuePage template copies length gap top source patched s).1 := by
  unfold ownQueuePage
  split
  · next t src pat _ _ _ =>
    dsimp only
    split_ifs
    · exact h
    · exact h
    · exact h
    · exact h
    · exact h
    · exact ringsFilled_setComposer (withPage_goesOn hplaced (e := ⟨s.composer.nextSequence, copies.toNat, s.composer.nextSerial,
        length.toNat, gap.toNat, top.toNat, src, t, pat⟩) rfl rfl) h
  · exact h

/-- A mark changed leaves the compose position (R103). -/
theorem Composer.updMark_goesOn (c : Composer) (copy : Nat) (f : MarkEntry → MarkEntry) : c.GoesOn (c.updMark copy f) :=
  ⟨le_of_eq (Composer.position_congr rfl rfl rfl rfl).symm, .inr rfl⟩

theorem ownMark_ringsFilled {copy : BitVec 32} {value : BitVec 16} {s : State} (h : ringsFilled s) :
    ringsFilled (ownMark copy value s).1 := by
  rw [ownMark_eq]
  split_ifs
  · exact h
  · exact h
  · exact h
  · exact ringsFilled_setComposer (Composer.updMark_goesOn _ _ _) h

/-- What the fill of the rings rests on from step to step. -/
structure RingsGround (s : State) : Prop where
  idle : idleOk s
  placed : s.composer.Placed
  copies : placedCopies s
  composer : composerOk s
  filled : ringsFilled s

theorem ringsGround_of {s : State} (hidle : idleOk s) (hplaces : placesOk s) (hcomposer : composerOk s) (hfilled : ringsFilled s) :
    RingsGround s := by
  obtain ⟨-, -, -, -, hqueued⟩ := hplaces
  exact ⟨hidle, placed_of_composerOk hcomposer, fun q hq => (hqueued q hq).2, hcomposer, hfilled⟩

theorem handle_ringsFilled (r : Request) {s : State} (h : RingsGround s) : ringsFilled (handle r s).1 := by
  by_cases hb : requestBlocks r ⊆ [.outside, .job, .geo, .motion, .place, .templates, .pool, .ports, .counters, .feed]
  · exact ringsFilled_of_frame (handle_frame r s) hb h.filled
  · cases r
    case setMemoryPlan => exact ownSetMemoryPlan_ringsFilled h.idle h.filled
    case queuePage => exact ownQueuePage_ringsFilled h.placed h.filled
    case mark => exact ownMark_ringsFilled h.filled
    case startJob => exact ownStartJob_ringsFilled h.filled
    case stopJob => exact ownStopJob_ringsFilled h.filled
    case abort => rw [show handle .abort = ownAbort from rfl]; exact (ownAbort_atRest s).ringsFilled
    case restart => rw [show handle .restart = ownRestart from rfl]; exact (ownRestart_atRest s).ringsFilled
    all_goals exact absurd (by simp [requestBlocks]) hb

theorem serve_ringsFilled (tag : Byte) (r : Request) {s : State} (h : RingsGround s) : ringsFilled (serve tag r s) := by
  have hplaced : ringsFilled (placeReply tag r.code (handle r s).2 (handle r s).1) :=
    ringsFilled_of_frame (placeReply_frame _ _ _ _) (by simp) (handle_ringsFilled r h)
  exact ringsFilled_of_frame (afterReply_effects_frame r _ _) (by simp) hplaced

theorem ringsGround_setFeed {s : State} (h : RingsGround s) (x : Feed) : RingsGround (s.setFeed x) :=
  ⟨h.idle, h.placed, h.copies, h.composer, h.filled⟩

theorem takeRequest_ringsFilled {s : State} (h : RingsGround s) : ringsFilled (takeRequest s) := by
  unfold takeRequest
  split
  · next q rest _ =>
    have htaken := ringsGround_setFeed h { s.feed with requests := rest }
    dsimp only
    split
    · exact ringsFilled_of_frame (placeReply_frame _ _ _ _) (by simp) htaken.filled
    · exact serve_ringsFilled _ _ htaken
  · exact h.filled

/-! ### Commands and steps -/

theorem act_ringsFilled {s t : State} {can : Bool} {event : State → State} (hs : ringsFilled s)
    (hevent : can = true → ringsFilled (event s)) (h : act s can event = .next t) : ringsFilled t := by
  rcases act_cases h with ⟨hcan, -, rfl⟩ | ⟨-, rfl⟩
  · exact ringsFilled_finish (hevent hcan)
  · exact hs

theorem exec_compositionComplete_ringsFilled {s t : State} (hs : RingsGround s) (h : exec .compositionComplete s = .next t) :
    ringsFilled t := by
  change execCompositionComplete s = .next t at h
  unfold execCompositionComplete at h
  split at h
  · next hf =>
    exact actOn_keeps (P := ringsFilled) (fun _ => ringsFilled_finish) (completeComposition_ringsFilled hs.composer hf) h hs.filled
  · exact Host.Outcome.next.inj h ▸ hs.filled

/-- R87, R98: a block written keeps the plan. -/
theorem exec_templateLineWriteComplete_ringsFilled {s t : State} (hs : ringsFilled s) (h : exec .templateLineWriteComplete s = .next t) :
    ringsFilled t := by
  change execTemplateLineWriteComplete s = .next t at h
  unfold execTemplateLineWriteComplete at h
  split at h
  · next w _ =>
    have hframe := finishLineWrite_frame w s
    exact actOn_keeps (P := ringsFilled) (fun _ => ringsFilled_finish) (ringsFilled_of_drains (by rw [finishLineWrite_memory]; rfl)
      (ringDrains_of_eq (hframe .rings (by simp))) (.ofEq (hframe .composer (by simp)))) h hs
  · exact Host.Outcome.next.inj h ▸ hs

theorem exec_patchWriteComplete_ringsFilled {s t : State} (hs : ringsFilled s) (h : exec .patchWriteComplete s = .next t) :
    ringsFilled t := by
  change execPatchWriteComplete s = .next t at h
  unfold execPatchWriteComplete at h
  split at h
  · exact actOn_keeps (P := ringsFilled) (fun _ => ringsFilled_finish)
      (ringsFilled_of_drains rfl (ringDrains_of_eq rfl) (Composer.updMark_goesOn _ _ _)) h hs
  · exact Host.Outcome.next.inj h ▸ hs

theorem upsets_plan (es : List (Nat × WordError)) (m : FrameMemory) : (es.foldl FrameMemory.upset m).plan = m.plan := by
  induction es generalizing m with
  | nil => rfl
  | cons e es ih =>
    rw [List.foldl_cons, ih, FrameMemory.upset]
    split <;> rfl

theorem tick_ringsFilled {s : State} (hs : ringsFilled s) : ringsFilled (tick s) := by
  have hobserved : ringsFilled s.observed :=
    ringsFilled_of_drains (t := s.observed) (upsets_plan _ _) (ringDrains_of_eq rfl) (.refl _) hs
  rw [tick_eq]
  split
  · exact hobserved
  · refine ringsFilled_of_frame (sampleFaults_frame _) (by simp) ?_
    split
    · exact ringsFilled_of_frame (sampleFilters_frame _) (by simp) hobserved
    · exact ringsFilled_of_frame (firstSample_frame _) (by simp) hobserved

theorem exec_keeps_ringsFilled (c : Instr) (s t : State) (hs : RingsGround s) (h : exec c s = .next t) : ringsFilled t := by
  cases c
  case stopCompletion => exact act_ringsFilled hs.filled (fun _ => (enterIdle_atRest .stopComplete s).ringsFilled) h
  case mapSwitchComplete => exact ringsFilled_of_frame (exec_mapSwitchComplete_frame h) (by simp) hs.filled
  case encoderFilterAccept =>
    refine act_ringsFilled hs.filled (fun _ => ringsFilled_of_act (encoderAccept_act s) ?_
      (encoderAccept_goesOn hs.placed hs.copies) hs.filled) h
    exact encoderAccept_frame s .memory (by simp)
  case pdFilterAccept => exact ringsFilled_of_frame (exec_pdFilterAccept_frame h) (by simp) hs.filled
  case continuousPlacement => exact ringsFilled_of_frame (exec_continuousPlacement_frame h) (by simp) hs.filled
  case headFault x =>
    refine act_ringsFilled hs.filled (fun _ => ringsFilled_of_act (portOffline_act x s) ?_ (portOffline_goesOn x s) hs.filled) h
    exact portOffline_frame x s .memory (by simp)
  case loadGrant =>
    have hframe := exec_loadGrant_frame h
    exact ringsFilled_of_act (exec_loadGrant_act h) (hframe .memory (by simp)) (.ofEq (hframe .composer (by simp))) hs.filled
  case loadComplete =>
    have hframe := exec_loadComplete_frame h
    exact ringsFilled_of_act (exec_loadComplete_act h) (hframe .memory (by simp)) (.ofEq (hframe .composer (by simp))) hs.filled
  case fire => exact ringsFilled_of_frame (exec_fire_frame h) (by simp) hs.filled
  case fireWindowEnd => exact ringsFilled_of_frame (exec_fireWindowEnd_frame h) (by simp) hs.filled
  case keepWetExpiry => exact ringsFilled_of_frame (exec_keepWetExpiry_frame h) (by simp) hs.filled
  case keepWetPulse => exact ringsFilled_of_frame (exec_keepWetPulse_frame h) (by simp) hs.filled
  case composeBegin => exact act_ringsFilled hs.filled (fun hc => beginLine_ringsFilled hc hs.filled) h
  case compositionComplete => exact exec_compositionComplete_ringsFilled hs h
  case frameHeaderReceived => exact ringsFilled_of_frame (exec_frameHeaderReceived_frame h) (by simp) hs.filled
  case frameReceived => exact ringsFilled_of_frame (exec_frameReceived_frame h) (by simp) hs.filled
  case requestTaken => exact act_ringsFilled hs.filled (fun _ => takeRequest_ringsFilled hs) h
  case patchFrame => exact ringsFilled_of_frame (exec_patchFrame_frame h) (by simp) hs.filled
  case templateLineFrame => exact ringsFilled_of_frame (exec_templateLineFrame_frame h) (by simp) hs.filled
  case templateLineWriteComplete => exact exec_templateLineWriteComplete_ringsFilled hs.filled h
  case patchWriteComplete => exact exec_patchWriteComplete_ringsFilled hs.filled h
  case channelDrained => exact ringsFilled_of_frame (exec_channelDrained_frame h) (by simp) hs.filled
  case creditFrameSent => exact ringsFilled_of_frame (exec_creditFrameSent_frame h) (by simp) hs.filled
  case frameSent => exact ringsFilled_of_frame (exec_frameSent_frame h) (by simp) hs.filled
  case linkUp => exact ringsFilled_of_frame (exec_linkUp_frame h) (by simp) hs.filled
  case trainingTimeout => exact ringsFilled_of_frame (exec_trainingTimeout_frame h) (by simp) hs.filled
  case wordLockLoss => exact ringsFilled_of_frame (exec_wordLockLoss_frame h) (by simp) hs.filled
  case resetAssert => exact Host.Outcome.next.inj h ▸ (reset_atRest (t := resetState s) rfl rfl rfl rfl).ringsFilled
  case resetRelease => exact Host.Outcome.next.inj h ▸ hs.filled
  case powerOn => exact Host.Outcome.next.inj h ▸ (reset_atRest (t := powerOnState s) rfl rfl rfl rfl).ringsFilled
  all_goals exact act_ringsFilled hs.filled (fun _ => serve_ringsFilled _ _ hs) h

theorem step_keeps_ringsFilled {s t : State} (hs : RingsGround s) (h : step s = .next t) : ringsFilled t := by
  rcases step_cases h with ⟨c, rest, hc⟩ | ⟨x, rfl⟩ | rfl
  · exact exec_keeps_ringsFilled c { s with pending := rest } t ⟨hs.idle, hs.placed, hs.copies, hs.composer, hs.filled⟩ hc
  · exact (ringsGround_setFeed hs x).filled
  · exact tick_ringsFilled hs.filled

/-- Settles O58: the rows, rings and retire points by what each event is to them, and the fill of the rings behind the Composer. -/
theorem stepKeepsRowsAndRings : Obligations.StepKeepsRowsAndRings := fun _ _ h =>
  have hkeeps := step_keepsRows h
  ⟨fun hrows hrings => ⟨hkeeps.rows hrows, hkeeps.low hrings, hkeeps.rise hrings⟩, hkeeps.least,
    fun hidle hplaces hcomposer hfilled => step_keeps_ringsFilled (ringsGround_of hidle hplaces hcomposer hfilled) h⟩

end Sys2Proof.Machine
end

section
/-! # A head fault (R122, R127, R128, R156, R157)

What a port that goes OFFLINE leaves of its own rows and its plane's ring, and what the halt of its policy leaves of the others. -/

namespace Sys2Proof.Machine

/-! ### Retire points formed again -/

theorem retiredTo_of_reformed {q : Plane} {s t : State} (h : ringReformed q s t) : retiredTo q s t := by
  obtain ⟨-, x, hring, hbelow, hleast⟩ := h
  rw [retiredTo, hring]
  refine ⟨rfl, rfl, ?_⟩
  split
  · next hnone =>
    rcases hleast with ⟨-, rfl⟩ | ⟨r, hr, -⟩
    · rfl
    · rw [hnone] at hr
      cases hr
  · next hsome => exact ⟨hbelow, hleast.resolve_left fun hnone => hsome hnone.1⟩

theorem retiredTo_of_stands {q : Plane} {s t : State} (h : ringStands q s t) (hjob : t.job.state = .idle ↔ s.job.state = .idle)
    (hj : s.job.state ≠ .idle) (hlow : ringsOk s) (hleast : retireOk s) : retiredTo q s t := by
  have hkeeps := h.keeps hjob
  obtain ⟨-, hentries, hretire, hwrite⟩ := h
  obtain ⟨habove, hbelow⟩ := hkeeps.1 (hlow q)
  refine ⟨hwrite, ?_, ?_⟩
  · rw [← hentries]
    exact (List.filter_eq_self.mpr fun e he => decide_eq_true (habove e he)).symm
  · split
    · exact hretire
    · next hsome => exact ⟨hbelow fun e => hj (hjob.mp e), (hkeeps.2 (hleast hj q)).resolve_left hsome⟩

/-- An event that leaves the rings, the ports and the Geometry Store alone. -/
theorem retiredTo_of_frame {bs : List Block} {q : Plane} {s t u : State} (hframe : unchangedBut bs t u)
    (hb : bs ⊆ [.job, .counters, .feed]) (h : retiredTo q s t) : retiredTo q s u := by
  have hkept := hframe.mono hb
  have hports : u.ports = t.ports := hkept .ports (by simp)
  exact retiredTo_congr (by rw [show u.rings = t.rings from hkept .rings (by simp)])
    (participating_congr (hkept .geo (by simp)) (fun g => by rw [hports]) q) (fun r _ => by rw [State.row, State.row, hports]) h

/-! ### The head that went OFFLINE -/

/-- A row with no line is as a halt leaves it (R140). -/
theorem haltEffect_of_isEmpty (g : Geometry) (h : Port) {r : Row} (hr : r.isEmpty) : haltEffect g h r = r := by
  obtain ⟨hload, hline, hdue⟩ := hr
  unfold haltEffect
  split
  · exact (Row.halted_of_no_line hline (by simp [hload, hline]) (by simp [hdue])).2
  · obtain ⟨load, line, due, window, loadEnd, data, inked, latched, release, joined⟩ := r
    subst hload hline hdue
    rfl

/-- What R128 leaves of the head's port, of its offline-from serial and of its plane's ring. -/
structure HeadLost (h : Port) (p : Plane) (s t : State) : Prop where
  geo : t.geo = { s.geo with offlineFrom := s.geo.offlineFrom.put h (some ((s.rings.get p).frontier + 1).toNat) }
  port : t.ports.get h = ⟨.offline, 0, (t.ports.get h).rows, [], { (s.ports.get h).keepWet with armed := false, deferred := false }⟩
  rows : ∀ k : RowIx, t.row h k = (s.row h k).abandoned
  frontier : (t.rings.get p).frontier = (s.rings.get p).frontier
  retired : retiredTo p s t

section

variable {h : Port} {p : Plane} {s : State}

theorem headOffline_lost (hok : (s.ports.get h).linesOk) : HeadLost h p s (headOffline h p s) where
  geo := headOffline_geo h p s
  port := by
    rw [headOffline_port, linesGivenUp_ports h p s hok]
    rfl
  rows k := by
    rw [State.row, headOffline_port, linesGivenUp_ports h p s hok, Table.get_ofFun]
    rfl
  frontier := by
    rw [headOffline_ring, if_pos rfl]
    rfl
  retired := retiredTo_of_reformed (headOffline_reformed h p s)

theorem HeadLost.ofFrame {bs : List Block} {t u : State} (ht : HeadLost h p s t) (hframe : unchangedBut bs t u)
    (hb : bs ⊆ [.job, .counters, .feed]) : HeadLost h p s u := by
  have hkept := hframe.mono hb
  have hports : u.ports = t.ports := hkept .ports (by simp)
  refine ⟨(hkept .geo (by simp)).trans ht.geo, by rw [hports]; exact ht.port, fun k => ?_, ?_, retiredTo_of_frame hframe hb ht.retired⟩
  · rw [State.row, hports]
    exact ht.rows k
  · rw [show u.rings = t.rings from hkept .rings (by simp)]
    exact ht.frontier

/-- R140: the halt finds the head with no line left. -/
theorem HeadLost.ofHalt {t : State} (ht : HeadLost h p s t) (hok : ∀ g, (t.ports.get g).linesOk) : HeadLost h p s (enterHalted t) := by
  have hrows : ∀ k, (enterHalted t).row h k = t.row h k := fun k => by
    rw [State.row, enterHalted_ports hok h, Table.get_ofFun]
    exact haltEffect_of_isEmpty _ _ (by rw [← State.row, ht.rows k]; exact ⟨rfl, rfl, rfl⟩)
  have hgeo : (enterHalted t).geo = t.geo := enterHalted_frame t .geo (by simp)
  refine ⟨hgeo.trans ht.geo, ?_, fun k => (hrows k).trans (ht.rows k), (enterHalted_frontier t p).trans ht.frontier,
    retiredTo_enterHalted ht.retired⟩
  rw [enterHalted_ports hok h, ht.port]

/-! ### The event -/

theorem exec_headFault (hs : awake s) (hready : (s.ports.get h).state = .ready) (hcount : 100 ≤ (s.ports.get h).faultCount) :
    exec (.headFault h) s = .next (finish (portOffline h s)) :=
  act_of_can (by rw [State.faultReached, hready]; exact decide_eq_true hcount) hs

theorem portOffline_plain (hout : s.job.state = .idle ∨ s.planeOf h = none) : portOffline h s
    = setPortState h .offline (s.updPort h (fun q => { q with faultCount := 0, keepWet := q.keepWet.disarm })) := by
  unfold portOffline
  rcases hout with hj | hplane
  · simp only [hj]
  · rw [hplane]
    cases s.job.state <;> rfl

theorem portOffline_inJob (hj : s.job.state ≠ .idle) (hplane : s.planeOf h = some p) : portOffline h s = offlineInJob h p s := by
  unfold portOffline
  rw [hplane]
  generalize s.job.state = state at hj
  cases state with
  | idle => exact absurd rfl hj
  | running | stopping | halted => rfl

theorem headOffline_tells (h : Port) (p : Plane) (s : State) : tells [.notice (.headState h .offline)] s (headOffline h p s) := by
  obtain ⟨u, hu⟩ : ∃ u, u = (reformRetire p (linesGivenUp h p s)).updPort h (fun q => { q with keepWet := q.keepWet.disarm }) :=
    ⟨_, rfl⟩
  have hframe : unchangedBut [.geo, .rings, .ports] s u := hu ▸ (wentOffline_frame h p s).andThen ((linesGivenUp_frame h p s).andThen
    ((reformRetire_frame p _).andThen (updPort_frame _ h _) (ds := [.rings, .ports]) (by simp) (by simp)) (ds := [.rings, .ports])
    (by simp) (by simp)) (by simp) (by simp)
  have hnotice : headOffline h p s = placeNotice (.headState h .offline) u := hu ▸ rfl
  rw [hnotice]
  exact tell_congr [.notice (.headState h .offline)] (hframe .feed (by simp)) (hframe .counters (by simp))

/-- R127: in IDLE, or out of use, the port goes OFFLINE and nothing else happens. -/
theorem headFault_plain (hs : awake s) (hready : (s.ports.get h).state = .ready) (hcount : 100 ≤ (s.ports.get h).faultCount)
    (hout : s.job.state = .idle ∨ s.planeOf h = none) :
    ∃ t : State, exec (.headFault h) s = .next t ∧ unchangedBut [.ports, .counters, .feed] s t
      ∧ announced [.notice (.headState h .offline)] s t
      ∧ t.ports = s.ports.put h { s.ports.get h with
        state := .offline, faultCount := 0, keepWet := { (s.ports.get h).keepWet with armed := false, deferred := false } } := by
  refine ⟨_, exec_headFault hs hready hcount, ?_, ?_, ?_⟩
  all_goals rw [portOffline_plain hout]
  · exact unchangedBut_finish (by simp) ((updPort_frame s h _).andThen (setPortState_frame h .offline _) (by simp) (by simp))
  · exact announced_tell (u := (s.updPort h (fun q => { q with faultCount := 0, keepWet := q.keepWet.disarm })).updPort h
      (fun q => { q with state := .offline })) rfl rfl rfl rfl
  · rw [finish_ports, setPortState, placeNotice_ports, updPort_updPort]
    rfl

/-- R156: with policy HALT the fault halts a running or stopping job, which gives up the lines of every other head (R140, R157). -/
theorem headFault_halts (hs : awake s) (hrows : rowsOk s) (hready : (s.ports.get h).state = .ready)
    (hcount : 100 ≤ (s.ports.get h).faultCount) (hj : s.job.state ≠ .idle) (hplane : s.planeOf h = some p)
    (hpolicy : (s.geo.heads.get h).policy = .halt) (hnot : s.job.state ≠ .halted) :
    ∃ t : State, exec (.headFault h) s = .next t ∧ HeadLost h p s t ∧ t.job = ⟨.halted, .headFault h⟩
      ∧ t.composer = { s.composer with flight := none }
      ∧ (∀ g : Port, g ≠ h → s.geo.inUse g = true → (t.ports.get g).arbiter = [] ∧ ∀ k : RowIx, t.row g k = (s.row g k).halted)
      ∧ (∀ q : Plane, q ≠ p → (t.rings.get q).frontier = (s.rings.get q).frontier ∧ (ringsOk s → retireOk s → retiredTo q s t))
      ∧ announced [.notice (.headState h .offline), .notice (.jobState .halted (.headFault h))] s t := by
  obtain ⟨w, hw⟩ : ∃ w, w = headOffline h p s := ⟨_, rfl⟩
  obtain ⟨v, hv⟩ : ∃ v, v = placeNotice (.jobState .halted (.headFault h)) (w.setJob ⟨.halted, .headFault h⟩) := ⟨_, rfl⟩
  have hoff := headOffline_frame h p s
  have hlost : HeadLost h p s w := hw ▸ headOffline_lost (linesOk_of_rowsOk hrows h)
  have hwjob : w.job = s.job := hw ▸ hoff .job (by simp)
  have hnote : unchangedBut [.job, .feed] w v := hv ▸ (setJob_frame w _).andThen (placeNotice_frame _ _) (by simp) (by simp)
  have hports : v.ports = w.ports := hnote .ports (by simp)
  have hrings : v.rings = w.rings := hnote .rings (by simp)
  have hgeo : v.geo = w.geo := hnote .geo (by simp)
  have hwrows : rowsOk w := hw ▸ (headOffline_act hplane).rows hrows
  have hok : ∀ g, (v.ports.get g).linesOk := fun g => hports ▸ linesOk_of_rowsOk hwrows g
  have hevent : portOffline h s = enterHalted v := by
    have hactive : w.job.state = .running ∨ w.job.state = .stopping := by
      rw [hwjob]
      cases hjob : s.job.state <;> simp_all
    rw [portOffline_inJob hj hplane, offlineInJob_eq, ← hw, if_pos (by rw [hlost.geo]; exact hpolicy), raiseHalt_of_active _ _ hactive, hv]
  have hexec := exec_headFault hs hready hcount
  rw [hevent] at hexec
  have hhalt := enterHalted_frame v
  refine ⟨_, hexec, ((hlost.ofFrame hnote (by simp)).ofHalt hok).ofFrame (finish_frame _) (by simp), ?_, ?_, fun g hg huse => ?_,
    fun q hq => ⟨?_, fun hlow hleast => ?_⟩, ?_⟩
  · rw [finish_job, show (enterHalted v).job = v.job from hhalt .job (by simp), hv]
    simp
  · rw [finish_composer, enterHalted_composer, show v.composer = w.composer from hnote .composer (by simp), hw,
      show (headOffline h p s).composer = s.composer from hoff .composer (by simp)]
  · have hport : v.ports.get g = s.ports.get g := by rw [hports, hw, headOffline_ports h p s hg]
    have huse' : v.geo.inUse g = true := by
      rw [hgeo, hlost.geo]
      exact huse
    simp only [State.row, finish_ports, enterHalted_ports hok g, hport, Table.get_ofFun, haltEffect, if_pos huse', true_and, implies_true]
  · rw [finish_rings, enterHalted_frontier, hrings, hw, headOffline_ring, if_neg (Ne.symm hq)]
  · have hstands : retiredTo q s w := hw ▸ retiredTo_of_stands (headOffline_stands hplane hq)
      (by rw [show (headOffline h p s).job = s.job from hoff .job (by simp)]) hj hlow hleast
    exact retiredTo_of_frame (finish_frame _) (by simp) (retiredTo_enterHalted (retiredTo_of_frame hnote (by simp) hstands))
  · have hvtells : tells [.notice (.jobState .halted (.headFault h))] w v := by
      rw [hv]
      exact tell_congr [.notice (.jobState .halted (.headFault h))] (s := w) (u := w.setJob ⟨.halted, .headFault h⟩) rfl rfl
    have hsigns := (hw ▸ headOffline_tells h p s : tells [.notice (.headState h .offline)] s w).trans hvtells
    exact announced_of ((show (enterHalted v).feed = v.feed from hhalt .feed (by simp)).trans hsigns.1)
      ((show (enterHalted v).counters = v.counters from hhalt .counters (by simp)).trans hsigns.2)

/-- R128, R156: with another policy, or in HALTED, the fault touches no other head; a halt cause in HALTED counts as a later halt. -/
theorem headFault_goesOn (hs : awake s) (hrows : rowsOk s) (hready : (s.ports.get h).state = .ready)
    (hcount : 100 ≤ (s.ports.get h).faultCount) (hj : s.job.state ≠ .idle) (hplane : s.planeOf h = some p)
    (hnot : ¬((s.geo.heads.get h).policy = .halt ∧ s.job.state ≠ .halted)) :
    ∃ t : State, exec (.headFault h) s = .next t ∧ HeadLost h p s t ∧ t.job = s.job ∧ t.composer = s.composer
      ∧ (∀ g : Port, g ≠ h → t.ports.get g = s.ports.get g) ∧ (∀ q : Plane, q ≠ p → t.rings.get q = s.rings.get q)
      ∧ announced ([.notice (.headState h .offline)] ++ (if (s.geo.heads.get h).policy ≠ .halt then [] else [.count .laterHalts])) s t := by
  obtain ⟨w, hw⟩ : ∃ w, w = headOffline h p s := ⟨_, rfl⟩
  have hoff : unchangedBut [.geo, .rings, .ports, .feed] s w := hw ▸ headOffline_frame h p s
  have hlost : HeadLost h p s w := hw ▸ headOffline_lost (linesOk_of_rowsOk hrows h)
  have hjob : w.job = s.job := hoff .job (by simp)
  have hexec := exec_headFault hs hready hcount
  rw [portOffline_inJob hj hplane, offlineInJob_eq, ← hw, hlost.geo] at hexec
  have hevent : ∃ v, exec (.headFault h) s = .next (finish v) ∧ unchangedBut [.counters, .feed] w v
      ∧ tells (if (s.geo.heads.get h).policy ≠ .halt then [] else [.count .laterHalts]) w v := by
    by_cases hpolicy : (s.geo.heads.get h).policy = .halt
    · have hhalted : w.job.state = .halted := by
        rw [hjob]
        exact not_not.mp fun e => hnot ⟨hpolicy, e⟩
      rw [if_pos hpolicy, raiseHalt_of_inactive _ _ (by simp [hhalted]), if_pos hhalted] at hexec
      exact ⟨_, hexec, bump_frame _ w, by rw [if_neg (not_not.mpr hpolicy)]; exact ⟨rfl, rfl⟩⟩
    · rw [if_neg hpolicy] at hexec
      exact ⟨_, hexec, unchangedBut_refl _ w, by rw [if_pos hpolicy]; exact ⟨rfl, rfl⟩⟩
  obtain ⟨v, hexec', hframe, htells⟩ := hevent
  have hsigns := (hw ▸ headOffline_tells h p s : tells [.notice (.headState h .offline)] s w).trans htells
  refine ⟨_, hexec', (hlost.ofFrame hframe (by simp)).ofFrame (finish_frame _) (by simp), ?_, ?_, fun g hg => ?_, fun q hq => ?_,
    announced_of hsigns.1 hsigns.2⟩
  · rw [finish_job, show v.job = w.job from hframe .job (by simp), hjob]
  · rw [finish_composer, show v.composer = w.composer from hframe .composer (by simp),
      show w.composer = s.composer from hoff .composer (by simp)]
  · rw [finish_ports, show v.ports = w.ports from hframe .ports (by simp), hw, headOffline_ports h p s hg]
  · rw [finish_rings, show v.rings = w.rings from hframe .rings (by simp), hw, headOffline_ring, if_neg (Ne.symm hq)]

end

/-- Settles O39: the port that goes OFFLINE alone, and in a job with and without the halt of its policy. -/
theorem headFaultResult : Obligations.HeadFaultResult := by
  refine fun h s hs hrows hready hcount => ⟨fun hout => headFault_plain hs hready hcount hout, fun p hj hplane => ?_⟩
  by_cases hhalts : (s.geo.heads.get h).policy = .halt ∧ s.job.state ≠ .halted
  · obtain ⟨t, ht, hlost, hjob, hcomposer, hothers, hrings, hsigns⟩ :=
      headFault_halts hs hrows hready hcount hj hplane hhalts.1 hhalts.2
    refine ⟨t, ht, (exec_headFault_frame ht).mono (by simp), hlost.geo, hlost.port, hlost.rows, hlost.frontier, hlost.retired,
      fun _ => ⟨hjob, hcomposer, hothers, hrings⟩, fun hnot => absurd hhalts hnot, ?_⟩
    rw [if_neg (not_not.mpr hhalts.1), if_neg hhalts.2]
    exact hsigns
  · obtain ⟨t, ht, hlost, hjob, hcomposer, hothers, hrings, hsigns⟩ := headFault_goesOn hs hrows hready hcount hj hplane hhalts
    refine ⟨t, ht, (exec_headFault_frame ht).mono (by simp), hlost.geo, hlost.port, hlost.rows, hlost.frontier, hlost.retired,
      fun h => absurd h hhalts, fun _ => ⟨hjob, hcomposer, hothers, hrings⟩, ?_⟩
    by_cases hpolicy : (s.geo.heads.get h).policy = .halt
    · have hhalted := not_not.mp fun e => hhalts ⟨hpolicy, e⟩
      rw [if_neg (not_not.mpr hpolicy)] at hsigns ⊢
      rw [if_pos hhalted]
      exact hsigns
    · rw [if_pos hpolicy] at hsigns ⊢
      exact hsigns

end Sys2Proof.Machine
end

section
/-! # Loads (R20, R22, R29, R33, R80, R118 to R121, R132, R133)

The levels a load leaves in its row and the words it reads, in the words of the statement, and the load granted and completed. -/

namespace Sys2Proof.Machine

/-! ### Levels and reads of a load -/

theorem addition_eq (r : PlaneRec) {x : Nat} (hx : x < 4) : r.addition x = [0, r.add1, r.add2, r.add3].getD x 0 := by
  interval_cases x <;> rfl

/-- The level a nozzle is given by the line in a block (R22, R29, R30): 0 beyond the width and for a column another head owns, else its
pixel with what its dead neighbours add. -/
def State.blockLevel (s : State) (p : Plane) (serial block : Nat) (h : Port) (k : RowIx) (n : Nat) : Nat :=
  let plane := s.geo.planes.get p
  let c := (s.geo.heads.get h).first + n * (s.geo.heads.get h).rows + k.val
  let pixel := s.memory.pixel block
  let adds := fun (c : Nat) => if s.dead p serial c then [0, plane.add1, plane.add2, plane.add3].getD (pixel c) 0 else 0
  let sum := min 3 (pixel c + (if c = 0 then 0 else adds (c - 1)) + adds (c + 1))
  if plane.width ≤ c ∨ s.owner p serial c ≠ some h then 0
  else if s.geo.statusFor p serial h k.val n = .weak then min sum plane.weakCap else sum

theorem nozzleLevel_eq (s : State) (p : Plane) (serial block : Nat) (h : Port) (k : RowIx) (n : Nat) :
    s.nozzleLevel p serial (s.memory.pixel block) h k n = s.blockLevel p serial block h k n := by
  have hadds : ∀ c, s.addedBy p serial (s.memory.pixel block) c = if s.dead p serial c then
      [0, (s.geo.planes.get p).add1, (s.geo.planes.get p).add2, (s.geo.planes.get p).add3].getD (s.memory.pixel block c) 0 else 0 :=
    fun c => by rw [State.addedBy, addition_eq _ (pixel_lt _ _ _)]
  simp only [State.nozzleLevel, State.ownerLevel, State.blockLevel, hadds, HeadRec.column]
  by_cases hwidth : (s.geo.planes.get p).width ≤ (s.geo.heads.get h).first + n * (s.geo.heads.get h).rows + k.val
  · rw [if_pos hwidth, if_pos (.inl hwidth)]
  · rw [if_neg hwidth]
    by_cases howner : s.owner p serial ((s.geo.heads.get h).first + n * (s.geo.heads.get h).rows + k.val) = some h
    · rw [if_pos howner, if_neg (not_or.mpr ⟨hwidth, not_not.mpr howner⟩)]
    · rw [if_neg howner, if_pos (.inr howner)]

theorem loadedData_eq (s : State) (p : Plane) (serial block : Nat) (h : Port) (k : RowIx) :
    s.loadedData p serial (s.memory.pixel block) h k
      = (List.range (s.geo.heads.get h).nozzles).map (s.blockLevel p serial block h k) :=
  List.map_congr_left fun n _ => nozzleLevel_eq s p serial block h k n

/-- R33: the note that some level is not 0. -/
theorem any_inked (level : Nat → Nat) (nozzles : Nat) :
    ((List.range nozzles).map level).any (fun v => decide (0 < v)) = decide (∃ n < nozzles, 0 < level n) := by
  rw [Bool.eq_iff_iff]
  simp

/-- The words a load reads (R80). -/
def State.readsWord (s : State) (p : Plane) (h : Port) (k : RowIx) (w : Nat) : Bool :=
  let width := (s.geo.planes.get p).width
  let column := fun (n : Nat) => (s.geo.heads.get h).first + n * (s.geo.heads.get h).rows + k.val
  decide (∃ n < (s.geo.heads.get h).nozzles, column n < width ∧ (column n / 32 = w
    ∨ (0 < column n ∧ (column n - 1) / 32 = w) ∨ (column n + 1 < width ∧ (column n + 1) / 32 = w)))

theorem loadReads_eq (s : State) (p : Plane) (h : Port) (k : RowIx) : s.loadReads p h k = s.readsWord p h k := by
  funext w
  rw [Bool.eq_iff_iff]
  simp only [State.loadReads, State.readsWord, List.any_eq_true, List.mem_range, Bool.and_eq_true, Bool.or_eq_true, decide_eq_true_eq,
    beq_iff_eq, or_assoc]
  rfl

/-! ### A load granted (R118, R132, R133) -/

section

variable {s : State} {h : Port} {k : RowIx} {p : Plane} {l : PendingLine}

theorem loadGrant_result {rest : List RowIx} (hs : awake s) (hfront : (s.ports.get h).arbiter = k :: rest) (hplane : s.planeOf h = some p)
    (hfree : ∀ j : RowIx, (s.row h j).load ≠ .loading) (hline : (s.row h k).line = some l) :
    ∃ t : State, exec (.loadGrant h) s = .next t ∧ unchangedBut [.rings, .ports, .feed] s t ∧ announced [] s t
      ∧ otherRowsKept h k s t ∧ (t.ports.get h).arbiter = rest ∧ (t.ports.get h).keepWet = (s.ports.get h).keepWet
      ∧ t.row h k = { s.row h k with load := .loading, loadEnd := s.now + ((s.geo.heads.get h).nozzles + 1) / 2 + 24 }
      ∧ t.rings = s.rings.put p { s.rings.get p with frontier := max (s.rings.get p).frontier l.serial } := by
  have hexec : exec (.loadGrant h) s = .next (finish (raiseFrontier p l.serial (grantRow h k rest s))) := by
    have hcan : s.canGrant h = true := canGrant_iff.mpr ⟨hfree, by rw [hfront]; exact List.cons_ne_nil _ _, p, hplane⟩
    refine (act_of_can hcan hs).trans ?_
    rw [grantLoad_eq hfront hplane, hline]
    rfl
  have hports : ∀ g, (finish (raiseFrontier p l.serial (grantRow h k rest s))).ports.get g = if h = g then
      (s.ports.get g).grant k rest (s.now + loadTicks (s.geo.heads.get h).nozzles) else s.ports.get g := fun g => by
    rw [finish_ports]
    exact Table.get_upd _ _ _ _
  have hport := (hports h).trans (if_pos rfl)
  have hrow : ∀ j, (finish (raiseFrontier p l.serial (grantRow h k rest s))).row h j = if k = j then
      { s.row h j with load := .loading, loadEnd := s.now + loadTicks (s.geo.heads.get h).nozzles } else s.row h j := fun j => by
    rw [State.row, hport]
    exact Table.get_upd _ _ _ _
  refine ⟨_, hexec, exec_loadGrant_frame hexec, announced_of (signs := []) rfl rfl, ⟨fun g hg => ?_, fun j hj => ?_, ?_, ?_⟩, ?_, ?_,
    ?_, ?_⟩
  · rw [hports, if_neg (Ne.symm hg)]
  · rw [hrow, if_neg (Ne.symm hj)]
  · rw [hport]; rfl
  · rw [hport]; rfl
  · rw [hport]; rfl
  · rw [hport]; rfl
  · rw [hrow, if_pos rfl, loadTicks, Config.loadOverhead, Nat.add_assoc]
  · rw [finish_rings]
    rfl

/-! ### A load completed (R20, R33, R119 to R121, R133) -/

theorem loadDone_of_unique (hload : (s.row h k).load = .loading) (honly : ∀ j : RowIx, (s.row h j).load = .loading → j = k)
    (hend : (s.row h k).loadEnd ≤ s.now) (hplane : s.planeOf h = some p) (hline : (s.row h k).line = some l) :
    s.loadDone h = some (k, p, l.serial, s.memory.ringBase p + l.position) := by
  have hrow : s.loadingRow h = some k := by
    obtain ⟨j, hj⟩ : ∃ j, s.loadingRow h = some j :=
      Option.ne_none_iff_exists'.mp fun hnone => loadingRow_eq_none.mp hnone k hload
    rw [hj, honly j (loadingRow_eq_some hj)]
  simp only [State.loadDone, hrow, hplane, hline, if_pos hend]

theorem loadComplete_result (hs : awake s) (hwork : s.working h = true) (hk : k.val < (s.geo.heads.get h).rows)
    (hload : (s.row h k).load = .loading) (honly : ∀ j : RowIx, (s.row h j).load = .loading → j = k)
    (hend : (s.row h k).loadEnd ≤ s.now) (hplane : s.planeOf h = some p) (hline : (s.row h k).line = some l)
    (hin : s.memory.ringBase p + l.position < 262144) :
    let block := s.memory.ringBase p + l.position
    let level := s.blockLevel p l.serial block h k
    ∃ t : State, exec (.loadComplete h) s = .next t ∧ unchangedBut [.rings, .ports, .counters, .feed] s t
      ∧ announced (errorSigns s block (s.readsWord p h k)) s t ∧ otherRowsKept h k s t
      ∧ (t.ports.get h).arbiter = (s.ports.get h).arbiter ∧ (t.ports.get h).keepWet = (s.ports.get h).keepWet
      ∧ t.row h k = { s.row h k with
          load := .loaded, data := (List.range (s.geo.heads.get h).nozzles).map level,
          inked := decide (∃ n < (s.geo.heads.get h).nozzles, 0 < level n), release := max (s.row h k).release l.serial }
      ∧ (t.rings.get p).frontier = (s.rings.get p).frontier ∧ retiredTo p s t
      ∧ ∀ q : Plane, q ≠ p → t.rings.get q = s.rings.get q := by
  intro block level
  obtain ⟨u, hu⟩ : ∃ u, u = countReads block (s.readsWord p h k) s := ⟨_, rfl⟩
  obtain ⟨f, hf⟩ : ∃ f : Row → Row, f = fun r => { r with
      load := .loaded, data := (List.range (s.geo.heads.get h).nozzles).map level,
      inked := decide (∃ n < (s.geo.heads.get h).nozzles, 0 < level n) } := ⟨_, rfl⟩
  have hexec : exec (.loadComplete h) s = .next (finish (release h k p l.serial .loaded (u.updRow h k f))) := by
    change execLoadComplete h s = _
    rw [execLoadComplete, loadDone_of_unique hload honly hend hplane hline]
    refine (actOn_of_inside (fun b hb => List.mem_singleton.mp hb ▸ hin) hs).trans ?_
    rw [completeLoad, loadedData_eq, loadReads_eq, any_inked, hu, hf]
  obtain ⟨v, hv⟩ : ∃ v, v = u.updRow h k f := ⟨_, rfl⟩
  obtain ⟨x, hx⟩ : ∃ x, x = release h k p l.serial .loaded v := ⟨_, rfl⟩
  rw [← hv, ← hx] at hexec
  have hreads : unchangedBut [.counters, .feed] s u := hu ▸ countReads_frame block _ s
  have huports : u.ports = s.ports := hreads .ports (by simp)
  have hvgeo : v.geo = s.geo := hv ▸ hreads .geo (by simp)
  have hvrings : v.rings = s.rings := hv ▸ hreads .rings (by simp)
  have hvrow : ∀ g j, v.row g j = if h = g ∧ k = j then f (s.row g j) else s.row g j := fun g j => by
    rw [hv, row_updRow, State.row, huports]
    rfl
  have hrow : ∀ g j, x.row g j = if h = g ∧ k = j then { f (s.row g j) with release := max (s.row g j).release l.serial } else s.row g j :=
    fun g j => by
      rw [hx, release_row, hvrow]
      split
      · rw [hf]
      · rfl
  have hparts : (h, k) ∈ v.participating p := by
    obtain ⟨hready, -⟩ := Bool.and_eq_true_iff.mp hwork
    rw [mem_participating, hvgeo, planeOf_of_records (s := s) (by rw [hvgeo]) (by rw [hvgeo]), hv, State.updRow_ports,
      Table.get_upd_self, huports]
    exact ⟨hplane, beq_iff_eq.mp hready, hk⟩
  obtain ⟨hports, -, hrings⟩ := release_rows h k p l.serial .loaded v
  rw [← hx] at hports hrings
  have hport : ∀ g, x.ports.get g = if h = g then { s.ports.get g with rows := (x.ports.get g).rows } else s.ports.get g := fun g => by
    rw [hports, hv, State.updRow_ports, Table.get_upd, State.updRow_ports, Table.get_upd, huports]
    split <;> rfl
  have hself := (hport h).trans (if_pos rfl)
  refine ⟨_, hexec, exec_loadComplete_frame hexec, ?_, ⟨fun g hg => ?_, fun j hj => ?_, ?_, ?_⟩, ?_, ?_, ?_, ?_, ?_, fun q hq => ?_⟩
  · have hkept : unchangedBut [.rings, .ports] v x := hx ▸ release_uncounted_frame h k p l.serial (by simp) v
    have hfeed : x.feed = u.feed := (hkept .feed (by simp)).trans (by rw [hv]; rfl)
    have hcounters : x.counters = u.counters := (hkept .counters (by simp)).trans (by rw [hv]; rfl)
    rw [countReads_eq] at hu
    exact announced_of (hfeed.trans (by rw [hu])) (hcounters.trans (by rw [hu]))
  · rw [finish_ports, hport, if_neg (Ne.symm hg)]
  · rw [State.row, finish_ports, ← State.row, hrow, if_neg fun e => hj e.2.symm]
  · rw [finish_ports, hself]
  · rw [finish_ports, hself]
  · rw [finish_ports, hself]
  · rw [finish_ports, hself]
  · rw [State.row, finish_ports, ← State.row, hrow, if_pos ⟨rfl, rfl⟩, hf]
  · rw [finish_rings, hx, release_frontier, hvrings]
  · have hretired : retiredTo p v x := hx ▸ retiredTo_of_reformed (release_reformed hparts l.serial .loaded)
    refine retiredTo_of_frame (finish_frame x) (by simp) ?_
    rw [retiredTo, hvrings] at hretired
    exact hretired
  · rw [finish_rings, hrings, if_pos hparts, Table.get_upd_ne _ _ (Ne.symm hq), hvrings]

end

/-- Settles O40: the load granted, and the load completed. -/
theorem loadResults : Obligations.LoadResults :=
  ⟨fun _ _ _ _ hs hfront _ hplane hfree _ hline => loadGrant_result hs hfront hplane hfree hline,
    fun _ _ _ hs hwork hk hload honly hend _ hplane _ hline hin => loadComplete_result hs hwork hk hload honly hend hplane hline hin⟩

end Sys2Proof.Machine
end

section
/-! # The blocks of an event, as one table

A proof about every command needs the meaning of an event only where the event can change a block the proof reads; `exec_cases` gives
the frame of every other event at once. -/

namespace Sys2Proof.Machine

/-- The blocks an event can change; a request command is not an event and has none here. -/
def eventBlocks : Instr → List Block
  | .stopCompletion => [.job, .geo, .motion, .place, .pool, .composer, .rings, .ports, .feed]
  | .mapSwitchComplete _ => [.geo, .feed]
  | .encoderFilterAccept => [.job, .motion, .place, .pool, .composer, .rings, .ports, .counters, .feed]
  | .pdFilterAccept _ => [.place, .counters, .feed]
  | .continuousPlacement => [.place, .feed]
  | .headFault _ => [.job, .geo, .composer, .rings, .ports, .counters, .feed]
  | .loadGrant _ => [.rings, .ports, .feed]
  | .loadComplete _ => [.rings, .ports, .counters, .feed]
  | .fire _ _ => [.ports, .counters, .feed]
  | .fireWindowEnd _ _ => [.ports, .feed]
  | .keepWetExpiry _ => [.ports, .counters, .feed]
  | .keepWetPulse _ => [.ports, .counters, .feed]
  | .composeBegin => [.composer, .feed]
  | .compositionComplete => [.memory, .pool, .composer, .rings, .counters, .feed]
  | .frameHeaderReceived .. => [.counters, .feed]
  | .frameReceived _ _ => [.feed]
  | .requestTaken => insideBlocks
  | .patchFrame _ => [.pool, .counters, .feed]
  | .templateLineFrame _ => [.templates, .counters, .feed]
  | .templateLineWriteComplete => [.memory, .templates, .feed]
  | .patchWriteComplete => [.memory, .pool, .composer, .feed]
  | .channelDrained _ => [.feed]
  | .creditFrameSent => [.feed]
  | .frameSent => [.feed]
  | .linkUp => [.feed]
  | .trainingTimeout => [.feed]
  | .wordLockLoss => [.feed]
  | .resetAssert | .resetRelease | .powerOn => .outside :: insideBlocks
  | _ => []

theorem unchangedBut_all (s t : State) : unchangedBut (.outside :: insideBlocks) s t := fun b hb =>
  absurd (by cases b <;> simp [insideBlocks]) hb

/-- A command is the handling of a request, or an event that stays inside its blocks. -/
theorem exec_cases {c : Instr} {s t : State} (h : exec c s = .next t) :
    (∃ tag r, request tag r s = .next t) ∨ unchangedBut (eventBlocks c) s t := by
  cases c
  case stopCompletion => exact .inr (exec_stopCompletion_frame h)
  case mapSwitchComplete => exact .inr (exec_mapSwitchComplete_frame h)
  case encoderFilterAccept => exact .inr (exec_encoderFilterAccept_frame h)
  case pdFilterAccept => exact .inr (exec_pdFilterAccept_frame h)
  case continuousPlacement => exact .inr (exec_continuousPlacement_frame h)
  case headFault => exact .inr (exec_headFault_frame h)
  case loadGrant => exact .inr (exec_loadGrant_frame h)
  case loadComplete => exact .inr (exec_loadComplete_frame h)
  case fire => exact .inr (exec_fire_frame h)
  case fireWindowEnd => exact .inr (exec_fireWindowEnd_frame h)
  case keepWetExpiry => exact .inr (exec_keepWetExpiry_frame h)
  case keepWetPulse => exact .inr (exec_keepWetPulse_frame h)
  case composeBegin => exact .inr (exec_composeBegin_frame h)
  case compositionComplete => exact .inr (exec_compositionComplete_frame h)
  case frameHeaderReceived => exact .inr (exec_frameHeaderReceived_frame h)
  case frameReceived => exact .inr (exec_frameReceived_frame h)
  case requestTaken => exact .inr (exec_requestTaken_frame h)
  case patchFrame => exact .inr (exec_patchFrame_frame h)
  case templateLineFrame => exact .inr (exec_templateLineFrame_frame h)
  case templateLineWriteComplete => exact .inr (exec_templateLineWriteComplete_frame h)
  case patchWriteComplete => exact .inr (exec_patchWriteComplete_frame h)
  case channelDrained => exact .inr (exec_channelDrained_frame h)
  case creditFrameSent => exact .inr (exec_creditFrameSent_frame h)
  case frameSent => exact .inr (exec_frameSent_frame h)
  case linkUp => exact .inr (exec_linkUp_frame h)
  case trainingTimeout => exact .inr (exec_trainingTimeout_frame h)
  case wordLockLoss => exact .inr (exec_wordLockLoss_frame h)
  case resetAssert | resetRelease | powerOn => exact .inr (unchangedBut_all s t)
  all_goals exact .inl ⟨_, _, h⟩

end Sys2Proof.Machine
end

section
/-! # The configuration from state to state (R15)

`configurationKept` is an equality of fields, so it composes; a tick and most events leave the fields alone. -/

namespace Sys2Proof.Machine

theorem configurationKept.refl (s : State) : configurationKept s s := ⟨rfl, rfl, rfl, rfl, rfl, rfl, rfl, fun _ => ⟨rfl, rfl, rfl⟩⟩

theorem configurationKept.trans {s u t : State} (h : configurationKept s u) (h' : configurationKept u t) : configurationKept s t := by
  obtain ⟨hplanes, hheads, hseams, hplan, hsense, hfilter, hlimit, htriggers⟩ := h
  obtain ⟨hplanes', hheads', hseams', hplan', hsense', hfilter', hlimit', htriggers'⟩ := h'
  refine ⟨hplanes'.trans hplanes, hheads'.trans hheads, hseams'.trans hseams, hplan'.trans hplan, hsense'.trans hsense,
    hfilter'.trans hfilter, hlimit'.trans hlimit, fun i => ?_⟩
  obtain ⟨hedge, hhold, hlockout⟩ := htriggers i
  obtain ⟨hedge', hhold', hlockout'⟩ := htriggers' i
  exact ⟨hedge'.trans hedge, hhold'.trans hhold, hlockout'.trans hlockout⟩

/-- The settings of the product-detect inputs are as they were (R58). -/
def triggersKept (s t : State) : Prop := ∀ i : PdIx, (t.place.triggers.get i).edge = (s.place.triggers.get i).edge
  ∧ (t.place.triggers.get i).filter = (s.place.triggers.get i).filter
  ∧ (t.place.triggers.get i).lockout = (s.place.triggers.get i).lockout

/-- An event keeps the configuration where, of each block it changes, it keeps the configuration's fields. -/
theorem configurationKept.ofBlocks {bs : List Block} {s t : State} (h : unchangedBut bs s t)
    (hgeo : .geo ∈ bs → t.geo.planes = s.geo.planes ∧ t.geo.heads = s.geo.heads ∧ t.geo.seams = s.geo.seams := by simp)
    (hplan : .memory ∈ bs → t.memory.plan = s.memory.plan := by simp)
    (hmotion : .motion ∈ bs → t.motion.sense = s.motion.sense ∧ t.motion.filter = s.motion.filter
      ∧ t.motion.reverseLimit = s.motion.reverseLimit := by simp)
    (hplace : .place ∈ bs → triggersKept s t := by simp) : configurationKept s t := by
  have hgeo' : t.geo.planes = s.geo.planes ∧ t.geo.heads = s.geo.heads ∧ t.geo.seams = s.geo.seams := by
    by_cases hb : Block.geo ∈ bs
    · exact hgeo hb
    · rw [show t.geo = s.geo from h .geo hb]
      exact ⟨rfl, rfl, rfl⟩
  have hplan' : t.memory.plan = s.memory.plan := by
    by_cases hb : Block.memory ∈ bs
    · exact hplan hb
    · rw [show t.memory = s.memory from h .memory hb]
  have hmotion' : t.motion.sense = s.motion.sense ∧ t.motion.filter = s.motion.filter
      ∧ t.motion.reverseLimit = s.motion.reverseLimit := by
    by_cases hb : Block.motion ∈ bs
    · exact hmotion hb
    · rw [show t.motion = s.motion from h .motion hb]
      exact ⟨rfl, rfl, rfl⟩
  have hplace' : triggersKept s t := by
    by_cases hb : Block.place ∈ bs
    · exact hplace hb
    · unfold triggersKept
      rw [show t.place = s.place from h .place hb]
      exact fun _ => ⟨rfl, rfl, rfl⟩
  obtain ⟨hplanes, hheads, hseams⟩ := hgeo'
  obtain ⟨hsense, hfilter, hlimit⟩ := hmotion'
  exact ⟨hplanes, hheads, hseams, hplan', hsense, hfilter, hlimit, hplace'⟩

/-! ### A tick -/

/-- What a tick keeps beside the blocks it does not touch: the placements, the configuration, and of each port all but its fault
count. -/
structure SamplesOnly (s t : State) : Prop where
  blocks : unchangedBut [.outside, .motion, .place, .memory, .ports] s t
  list : t.place.list = s.place.list
  configuration : configurationKept s t
  ports : ∀ x : Port, ∃ n, t.ports.get x = { s.ports.get x with faultCount := n }

theorem SamplesOnly.refl (s : State) : SamplesOnly s s := ⟨unchangedBut_refl _ s, rfl, .refl s, fun _ => ⟨_, rfl⟩⟩

theorem SamplesOnly.trans {s u t : State} (h : SamplesOnly s u) (h' : SamplesOnly u t) : SamplesOnly s t := by
  refine ⟨unchangedBut_trans h.blocks h'.blocks, h'.list.trans h.list, h.configuration.trans h'.configuration, fun x => ?_⟩
  obtain ⟨n, hn⟩ := h.ports x
  obtain ⟨n', hn'⟩ := h'.ports x
  exact ⟨n', by rw [hn', hn]⟩

theorem samplesOnly_observed (s : State) : SamplesOnly s s.observed where
  blocks := (observed_frame s).mono (by simp)
  list := rfl
  configuration := .ofBlocks (observed_frame s) (hplan := fun _ => upsets_plan _ _)
  ports _ := ⟨_, rfl⟩

theorem samplesOnly_sampleFilters (s : State) : SamplesOnly s (sampleFilters s) where
  blocks := (sampleFilters_frame s).mono (by simp)
  list := rfl
  configuration := .ofBlocks (sampleFilters_frame s) (hmotion := fun _ => ⟨rfl, rfl, rfl⟩)
    (hplace := fun _ i => by rw [show (sampleFilters s).place.triggers.get i = _ from Table.get_ofFun _ i]; exact ⟨rfl, rfl, rfl⟩)
  ports _ := ⟨_, rfl⟩

theorem samplesOnly_firstSample (s : State) : SamplesOnly s (firstSample s) where
  blocks := (firstSample_frame s).mono (by simp)
  list := rfl
  configuration := .ofBlocks (firstSample_frame s) (hmotion := fun _ => ⟨rfl, rfl, rfl⟩)
    (hplace := fun _ i => by rw [show (firstSample s).place.triggers.get i = _ from Table.get_ofFun _ i]; exact ⟨rfl, rfl, rfl⟩)
  ports _ := ⟨_, rfl⟩

theorem samplesOnly_sampleFaults (s : State) : SamplesOnly s (sampleFaults s) where
  blocks := (sampleFaults_frame s).mono (by simp)
  list := rfl
  configuration := .ofBlocks (sampleFaults_frame s)
  ports x := ⟨_, (sampleFaults_port s x).trans (HeadPort.sampleFault_eq _ _)⟩

theorem samplesOnly_tick (s : State) : SamplesOnly s (tick s) := by
  rw [tick_eq]
  split
  · exact samplesOnly_observed s
  · split
    · exact ((samplesOnly_observed s).trans (samplesOnly_sampleFilters _)).trans (samplesOnly_sampleFaults _)
    · exact ((samplesOnly_observed s).trans (samplesOnly_firstSample _)).trans (samplesOnly_sampleFaults _)

end Sys2Proof.Machine
end

section
/-! # IDLE stays clear (R141, R147, R153)

`Vacant` is what IDLE is kept free of. Most events touch none of it; those of a job cannot occur in a vacant part, and the entries to
IDLE clear it. -/

namespace Sys2Proof.Machine

/-! ### A vacant part -/

/-- A port with no row queued and no line pending (R130, R141). -/
def HeadPort.vacant (q : HeadPort) : Prop := q.arbiter = [] ∧ ∀ k : RowIx, (q.rows.get k).isEmpty

/-- A part at rest with no placement and no pending switch (R153). -/
structure Vacant (s : State) : Prop extends AtRest s where
  placements : s.place.list = []
  switches : ∀ p : Plane, (s.geo.switches.get p).pending = false

theorem Vacant.idleOk {s : State} (h : Vacant s) : idleOk s := fun _ =>
  ⟨h.placements, h.flight, h.rings, h.switches, h.ports⟩

theorem idleOk.vacant {s : State} (hs : idleOk s) (hj : s.job.state = .idle) : Vacant s := by
  obtain ⟨hlist, hflight, hrings, hswitches, hports⟩ := hs hj
  exact ⟨⟨hj, hrings, hflight, hports⟩, hlist, hswitches⟩

theorem idleOk_of_active {s : State} (hj : s.job.state ≠ .idle) : idleOk s := fun hi => absurd hi hj

/-- An event that leaves the job and the rings alone, and of each other block what a vacant part is free of. -/
theorem Vacant.ofBlocks {bs : List Block} {s t : State} (hs : Vacant s) (h : unchangedBut bs s t) (hjob : .job ∉ bs := by simp)
    (hrings : .rings ∉ bs := by simp) (hgeo : .geo ∈ bs → t.geo.switches = s.geo.switches := by simp)
    (hplace : .place ∈ bs → t.place.list = s.place.list := by simp)
    (hcomposer : .composer ∈ bs → t.composer.flight = s.composer.flight := by simp)
    (hports : .ports ∈ bs → ∀ x, (t.ports.get x).vacant := by simp) : Vacant t := by
  have hswitches : t.geo.switches = s.geo.switches := by
    by_cases hb : Block.geo ∈ bs
    · exact hgeo hb
    · rw [show t.geo = s.geo from h .geo hb]
  have hlist : t.place.list = s.place.list := by
    by_cases hb : Block.place ∈ bs
    · exact hplace hb
    · rw [show t.place = s.place from h .place hb]
  have hflight : t.composer.flight = s.composer.flight := by
    by_cases hb : Block.composer ∈ bs
    · exact hcomposer hb
    · rw [show t.composer = s.composer from h .composer hb]
  have hvacant : ∀ x, (t.ports.get x).vacant := by
    by_cases hb : Block.ports ∈ bs
    · exact hports hb
    · rw [show t.ports = s.ports from h .ports hb]
      exact hs.ports
  refine ⟨⟨?_, fun p => ?_, hflight.trans hs.flight, hvacant⟩, hlist.trans hs.placements, fun p => ?_⟩
  · rw [show t.job = s.job from h .job hjob, hs.idle]
  · rw [show t.rings = s.rings from h .rings hrings, hs.rings p]
  · rw [hswitches, hs.switches p]

/-- An event of the same job state that in IDLE keeps the part vacant. -/
theorem idleOk.ofVacant {s t : State} (hs : idleOk s) (hidle : t.job.state = .idle → s.job.state = .idle)
    (hkeeps : Vacant s → Vacant t) : idleOk t := fun ht =>
  (hkeeps (hs.vacant (hidle ht))).idleOk ht

theorem idleOk.ofFrame {bs : List Block} {s t : State} (hs : idleOk s) (h : unchangedBut bs s t) (hjob : .job ∉ bs := by simp)
    (hkeeps : Vacant s → Vacant t) : idleOk t :=
  hs.ofVacant (by rw [show t.job = s.job from h .job hjob]; exact id) hkeeps

/-- An event of the link, the counters or another block a vacant part may use. -/
theorem idleOk.ofBlocks {bs : List Block} {s t : State} (hs : idleOk s) (h : unchangedBut bs s t)
    (hb : bs ⊆ [.outside, .motion, .memory, .templates, .pool, .counters, .feed] := by simp) : idleOk t :=
  hs.ofFrame (h.mono hb) (hkeeps := fun hv => hv.ofBlocks (h.mono hb))

theorem vacant_upd {s t : State} {h : Port} {f : HeadPort → HeadPort} (hs : Vacant s) (hports : t.ports = s.ports.upd h f)
    (hf : (s.ports.get h).vacant → (f (s.ports.get h)).vacant) (x : Port) : (t.ports.get x).vacant := by
  rw [hports, Table.get_upd]
  split
  · next hx => exact hx ▸ hf (hs.ports h)
  · exact hs.ports x

/-! ### What cannot occur in a vacant part -/

section

variable {s : State} (hs : Vacant s)
include hs

theorem Vacant.canGrant (h : Port) : s.canGrant h = false := by
  simp [State.canGrant, (hs.ports h).1]

theorem Vacant.loadDone (h : Port) : s.loadDone h = none := by
  by_contra hne
  obtain ⟨⟨k, p, serial, block⟩, hd⟩ := Option.ne_none_iff_exists'.mp hne
  obtain ⟨hload, -⟩ := loadDone_eq_some hd
  rw [((hs.ports h).2 k).1] at hload
  cases hload

theorem Vacant.canFire (h : Port) (k : RowIx) : s.canFire h k = false := by
  simp [State.canFire, ((hs.ports h).2 k).1]

theorem Vacant.canCompose : s.canCompose = false := by
  simp [State.canCompose, hs.idle]

theorem Vacant.continuousEntry : s.continuousEntry = none := by
  unfold State.continuousEntry
  split
  · rfl
  · simp [hs.idle]

theorem Vacant.switchReached (p : Plane) : switchReached s p = false := by
  simp [Machine.switchReached, hs.switches p]

end

/-- A guarded command that cannot occur leaves the state as it is. -/
theorem act_of_cannot {s t : State} {can : Bool} {event : State → State} (hcan : can = false) (h : act s can event = .next t) :
    t = s := by
  subst hcan
  exact (Host.Outcome.next.inj h).symm

/-! ### The events of a vacant part -/

section

variable {s : State}

theorem Vacant.finish (hs : Vacant s) : Vacant (finish s) := hs.ofBlocks (finish_frame s)

theorem Vacant.bump (hs : Vacant s) (c : CounterId) : Vacant (bump c s) := hs.ofBlocks (bump_frame c s)

theorem Vacant.placeNotice (hs : Vacant s) (n : Notice) : Vacant (placeNotice n s) := hs.ofBlocks (placeNotice_frame n s)

theorem Vacant.updPort (hs : Vacant s) {h : Port} {f : HeadPort → HeadPort}
    (hf : (s.ports.get h).vacant → (f (s.ports.get h)).vacant) : Vacant (s.updPort h f) :=
  hs.ofBlocks (updPort_frame s h f) (hports := fun _ => vacant_upd hs rfl hf)

theorem Vacant.updRow (hs : Vacant s) {h : Port} {k : RowIx} {f : Row → Row} (hf : ∀ r : Row, r.isEmpty → (f r).isEmpty) :
    Vacant (s.updRow h k f) := by
  refine hs.updPort fun hq => ⟨hq.1, fun j => ?_⟩
  rw [Table.get_upd]
  split
  · exact hf _ (hq.2 j)
  · exact hq.2 j

theorem keepWetPulse_vacant (h : Port) (hs : Vacant s) : Vacant (keepWetPulse h s) := by
  have hrows : Vacant ((s.rowsOf h).foldl (fun u k => u.updRow h k (fun r => r.startWindow u.now (s.geo.heads.get h).window)) s) :=
    foldl_keeps (fun u k hu => hu.updRow fun r hr => hr) _ hs
  exact (hrows.updPort (fun hq => hq)).bump _

theorem keepWetExpire_vacant (h : Port) (hs : Vacant s) : Vacant (keepWetExpire h s) := by
  unfold keepWetExpire
  split
  · exact keepWetPulse_vacant h hs
  · exact hs.updPort fun hq => hq

theorem portOffline_vacant (h : Port) (hs : Vacant s) : Vacant (portOffline h s) := by
  rw [portOffline_plain (.inl hs.idle)]
  exact ((hs.updPort (fun hq => hq)).updPort (fun hq => hq)).placeNotice _

theorem encoderAccept_vacant (hs : Vacant s) : Vacant (encoderAccept s) := by
  have htaken : Vacant (s.setMotion s.motion.taken) := hs.ofBlocks (setMotion_frame s _)
  rw [encoderAccept_eq]
  split
  · rw [forwardCount_idle htaken.idle]
    exact htaken.ofBlocks (setMotion_frame _ _)
  · rw [reverseCount_idle htaken.idle]
    exact htaken.ofBlocks (setMotion_frame _ _)
  · exact htaken.bump _

theorem offerEdge_vacant (i : PdIx) (hs : Vacant s) : offerEdge i s = s := by
  simp [offerEdge, State.judgeEdge, hs.idle]

theorem pdAccept_vacant (i : PdIx) (hs : Vacant s) : Vacant (pdAccept i s) := by
  unfold pdAccept
  dsimp only
  generalize hx : (s.place.triggers.upd i _) = x
  have ht : Vacant (s.setPlace { s.place with triggers := x }) := hs.ofBlocks (setPlace_frame s _) (hplace := fun _ => rfl)
  split
  · rw [offerEdge_vacant i ht]
    exact ht
  · exact ht

theorem tick_vacant (hs : Vacant s) : Vacant (tick s) := by
  have hsamples := samplesOnly_tick s
  refine hs.ofBlocks hsamples.blocks (hplace := fun _ => hsamples.list) (hports := fun _ x => ?_)
  obtain ⟨n, hn⟩ := hsamples.ports x
  rw [hn]
  exact hs.ports x

end

/-! ### The entries to IDLE (R11, R153) -/

/-- A plane's switch completed if it is pending (R11). -/
def settleSwitch (s : State) (p : Plane) : State := if (s.geo.switches.get p).pending then completeSwitch p s else s

theorem completeSwitches_eq (s : State) : completeSwitches s = allPlanes.foldl settleSwitch s := rfl

/-- A plane's switch that is settled or not pending is not pending after any settling. -/
theorem settleSwitch_pending {s : State} {p q : Plane} (h : q = p ∨ (s.geo.switches.get p).pending = false) :
    ((settleSwitch s q).geo.switches.get p).pending = false := by
  unfold settleSwitch
  split
  · rw [completeSwitch, placeNotice_geo, State.setGeo_geo, completeSwitch_switches]
    split
    · rfl
    · next hne => exact h.resolve_left (Ne.symm hne)
  · next hout =>
    rcases h with rfl | h
    · exact Bool.not_eq_true _ ▸ hout
    · exact h

theorem settleSwitches_pending {p : Plane} (l : List Plane) {s : State} (h : p ∈ l ∨ (s.geo.switches.get p).pending = false) :
    ((l.foldl settleSwitch s).geo.switches.get p).pending = false := by
  induction l generalizing s with
  | nil => exact h.resolve_left List.not_mem_nil
  | cons q l ih =>
    rcases h with h | h
    · rcases List.mem_cons.mp h with rfl | h
      · exact ih (.inr (settleSwitch_pending (.inl rfl)))
      · exact ih (.inl h)
    · exact ih (.inr (settleSwitch_pending (.inr h)))

/-- R11: after the pending switches complete, none is pending. -/
theorem completeSwitches_pending (s : State) (p : Plane) : ((completeSwitches s).geo.switches.get p).pending = false := by
  rw [completeSwitches_eq]
  exact settleSwitches_pending allPlanes (.inl (mem_allPlanes p))

theorem clearJob_place (s : State) : (clearJob s).place = { s.place with list := [] } := by
  unfold clearJob
  rw [show (completeSwitches _).place = _ from completeSwitches_frame _ .place (by simp), dropAllLines, State.setPorts_place,
    State.setRings_place, show (clearComposer _).place = _ from clearComposer_frame _ .place (by simp), State.setPlace_place,
    State.setMotion_place]

theorem clearJob_pending (s : State) (p : Plane) : ((clearJob s).geo.switches.get p).pending = false := by
  unfold clearJob
  rw [completeSwitches_pending]

theorem clearJob_vacant {s : State} (hj : s.job.state = .idle) : Vacant (clearJob s) where
  toAtRest := clearJob_atRest hj
  placements := by rw [clearJob_place]
  switches := clearJob_pending s

theorem enterIdle_vacant (cause : JobCause) (s : State) : Vacant (enterIdle cause s) := by
  rw [enterIdle_eq]
  exact (clearJob_vacant (toIdle_state cause s)).ofBlocks (closeAllDrained_frame _)

theorem HeadPort.vacant_dropLines (q : HeadPort) : q.dropLines.vacant := by
  refine ⟨rfl, fun k => ?_⟩
  rw [HeadPort.dropLines, Table.get_ofFun]
  exact Row.emptied_isEmpty _

section

variable {s : State} (hs : Vacant s)
include hs

theorem Vacant.setGeo (g : Geometry) (hg : g.switches = s.geo.switches) : Vacant (s.setGeo g) :=
  hs.ofBlocks (setGeo_frame s g) (hgeo := fun _ => hg)

theorem portReady_vacant (h : Port) : Vacant (portReady h s) := by
  rw [portReady_eq]
  exact (hs.updPort (fun hq => hq)).placeNotice _

theorem portUnassigned_vacant (h : Port) : Vacant (portUnassigned h s) := by
  rw [portUnassigned_eq]
  exact (Vacant.setGeo (hs.updPort (f := HeadPort.unassigned) (fun hq => hq))
    { s.geo with offlineFrom := s.geo.offlineFrom.put h none } rfl).placeNotice _

theorem portRecovers_vacant (h : Port) : Vacant (portRecovers h s) := by
  rw [portRecovers_eq]
  exact (Vacant.setGeo (hs.updPort (f := fun q => q.dropLines.readied s.now) (fun _ => HeadPort.vacant_dropLines _))
    { s.geo with offlineFrom := s.geo.offlineFrom.put h none } rfl).placeNotice _

theorem setHeadPort_vacant (h : Port) (assigned : Bool) : Vacant (setHeadPort h assigned s) := by
  rcases setHeadPort_cases h assigned s with ⟨-, -, e⟩ | ⟨-, -, e⟩ | ⟨-, e⟩ <;> rw [e]
  · exact portReady_vacant hs h
  · exact portUnassigned_vacant hs h
  · exact hs

theorem recoverPort_vacant (h : Port) : Vacant (recoverPort s h) := by
  unfold recoverPort
  split
  · exact portRecovers_vacant hs h
  · exact hs

/-- What follows a reply belongs to a job (R11, R150). -/
theorem afterReply_vacant (r : Request) (x : Result) : afterReply r x s = s := by
  unfold afterReply
  split
  · unfold completeStaged
    simp only [hs.idle, ne_eq, not_true_eq_false, false_and, and_false, if_false]
    split
    · split <;> rfl
    · rfl
  · rw [placeContinuous, hs.continuousEntry]
  · rfl

end

theorem ownRestart_vacant (s : State) : Vacant (ownRestart s).1 := by
  have hcleared : Vacant (restartCleared s) := by
    unfold restartCleared
    exact clearJob_vacant (toIdle_state _ _)
  rw [ownRestart_eq]
  dsimp only
  unfold restartRest
  refine foldl_keeps (P := Vacant) (fun v h hv => recoverPort_vacant hv h) allPorts (hcleared.ofBlocks
    ((setMotion_frame _ _).andThen ((setTemplates_frame _ _).andThen
      (closeAllChannels_frame _) (ds := [.templates, .feed]) (by simp) (by simp)) (ds := [.motion, .templates, .feed]) (by simp) (by simp)))

theorem ownAbort_vacant (s : State) : Vacant (ownAbort s).1 := by
  unfold ownAbort
  dsimp only
  exact enterIdle_vacant .abort s

theorem reset_vacant {t : State} (hjob : t.job = State.reset.job) (hrings : t.rings = State.reset.rings)
    (hcomposer : t.composer = State.reset.composer) (hports : t.ports = State.reset.ports) (hplace : t.place = State.reset.place)
    (hgeo : t.geo = State.reset.geo) : Vacant t where
  toAtRest := reset_atRest hjob hrings hcomposer hports
  placements := by rw [hplace]; rfl
  switches p := by
    rw [hgeo]
    exact congrArg SwitchRec.pending (Table.get_all _ _)

/-! ### Requests -/

section

variable {s : State} (hs : idleOk s)
include hs

theorem ownSetPlane_idleOk (plane : Byte) (width : BitVec 16) (add1 add2 add3 weakCap : Byte) :
    idleOk (ownSetPlane plane width add1 add2 add3 weakCap s).1 := by
  refine hs.ofFrame (ownSetPlane_frame _ _ _ _ _ _ s) (hkeeps := fun hv => ?_)
  unfold ownSetPlane
  split
  · split
    · exact hv
    · split
      · exact hv
      · exact hv.setGeo _ rfl
  · exact hv

theorem ownSetHead_idleOk (port plane : Byte) (first : BitVec 16) (rows : Byte) (nozzles : BitVec 16) (d f : Table 4 Nat)
    (window : BitVec 16) (policy : Byte) : idleOk (ownSetHead port plane first rows nozzles d f window policy s).1 := by
  refine hs.ofFrame (ownSetHead_frame _ _ _ _ _ _ _ _ _ s) (hkeeps := fun hv => ?_)
  unfold ownSetHead
  split
  · next h r _ _ =>
    split
    · exact hv
    · exact setHeadPort_vacant (hv.setGeo { s.geo with heads := s.geo.heads.put h r } rfl) _ _
  · exact hv

theorem ownSetSeam_idleOk (entry left right shift : Byte) (pattern : BitVec 64) :
    idleOk (ownSetSeam entry left right shift pattern s).1 := by
  refine hs.ofFrame (ownSetSeam_frame _ _ _ _ _ s) (hkeeps := fun hv => ?_)
  unfold ownSetSeam
  split
  · split
    · exact hv
    · exact hv.setGeo _ rfl
  · exact hv

theorem ownSetNozzles_idleOk (port row : Byte) (first count : BitVec 16) (statuses : List Byte) :
    idleOk (ownSetNozzles port row first count statuses s).1 := by
  refine hs.ofFrame (ownSetNozzles_frame _ _ _ _ _ s) (hkeeps := fun hv => ?_)
  unfold ownSetNozzles
  split
  · exact hv
  · split
    · exact hv
    · split
      · exact hv
      · rw [if_pos hv.idle]
        exact hv.setGeo _ rfl
      · exact hv.setGeo _ rfl

theorem ownRestoreHead_idleOk (port : Byte) : idleOk (ownRestoreHead port s).1 := by
  refine hs.ofFrame (ownRestoreHead_frame port s) (hkeeps := fun hv => ?_)
  unfold ownRestoreHead
  split
  · exact hv
  · split
    · exact hv
    · split
      · exact hv
      · split
        · exact hv
        · exact portRecovers_vacant hv _

theorem ownSetTrigger_idleOk (input edge filter : Byte) (lockout : BitVec 16) : idleOk (ownSetTrigger input edge filter lockout s).1 := by
  refine hs.ofFrame (ownSetTrigger_frame _ _ _ _ s) (hkeeps := fun hv => hv.ofBlocks (ownSetTrigger_frame _ _ _ _ s)
    (hplace := fun _ => ?_))
  unfold ownSetTrigger
  split
  · split <;> rfl
  · rfl

theorem ownSetKeepWet_idleOk (port interval mode : Byte) : idleOk (ownSetKeepWet port interval mode s).1 := by
  refine hs.ofFrame (ownSetKeepWet_frame _ _ _ s) (hkeeps := fun hv => ?_)
  unfold ownSetKeepWet
  split
  · exact hv.updPort fun hq => hq
  · exact hv

theorem ownQueuePage_idleOk (template : Byte) (copies length gap top : BitVec 16) (source patched : Byte) :
    idleOk (ownQueuePage template copies length gap top source patched s).1 := by
  refine hs.ofFrame (ownQueuePage_frame _ _ _ _ _ _ _ s) (hkeeps := fun hv => hv.ofBlocks (ownQueuePage_frame _ _ _ _ _ _ _ s)
    (hcomposer := fun _ => ?_))
  by_cases hout : pageOutOfRange template copies length source patched
  · rw [ownQueuePage_range hout]
  · rw [ownQueuePage_inRange hout]
    split_ifs <;> rfl

theorem ownMark_idleOk (copy : BitVec 32) (value : BitVec 16) : idleOk (ownMark copy value s).1 := by
  refine hs.ofFrame (ownMark_frame _ _ s) (hkeeps := fun hv => hv.ofBlocks (ownMark_frame _ _ s) (hcomposer := fun _ => ?_))
  rw [ownMark_eq]
  split_ifs <;> rfl

theorem ownStartJob_idleOk : idleOk (ownStartJob s).1 := by
  unfold ownStartJob
  split
  · exact hs
  · split
    · exact hs
    · exact idleOk_of_active (by simp [startJob, setJobState])

theorem ownStopJob_idleOk : idleOk (ownStopJob s).1 := by
  unfold ownStopJob
  split
  · exact hs
  · dsimp only
    split
    · exact (enterIdle_vacant _ _).idleOk
    · exact idleOk_of_active (by simp [stopComposer, setJobState])

theorem handle_idleOk (r : Request) : idleOk (handle r s).1 := by
  by_cases hb : requestBlocks r ⊆ [.outside, .motion, .memory, .templates, .pool, .counters, .feed]
  · exact hs.ofBlocks (handle_frame r s) hb
  · cases r
    case setPlane => exact ownSetPlane_idleOk hs _ _ _ _ _ _
    case setHead => exact ownSetHead_idleOk hs _ _ _ _ _ _ _ _ _
    case setSeam => exact ownSetSeam_idleOk hs _ _ _ _ _
    case setNozzles => exact ownSetNozzles_idleOk hs _ _ _ _ _
    case restoreHead => exact ownRestoreHead_idleOk hs _
    case setTrigger => exact ownSetTrigger_idleOk hs _ _ _ _
    case setKeepWet => exact ownSetKeepWet_idleOk hs _ _ _
    case queuePage => exact ownQueuePage_idleOk hs _ _ _ _ _ _ _
    case mark => exact ownMark_idleOk hs _ _
    case startJob => exact ownStartJob_idleOk hs
    case stopJob => exact ownStopJob_idleOk hs
    case abort => rw [show handle .abort = ownAbort from rfl]; exact (ownAbort_vacant s).idleOk
    case restart => rw [show handle .restart = ownRestart from rfl]; exact (ownRestart_vacant s).idleOk
    all_goals exact absurd (by simp [requestBlocks]) hb

theorem serve_idleOk (tag : Byte) (r : Request) : idleOk (serve tag r s) := by
  have hreply : idleOk (placeReply tag r.code (handle r s).2 (handle r s).1) :=
    (handle_idleOk hs r).ofBlocks (placeReply_frame _ _ _ _)
  exact hreply.ofFrame (afterReply_effects_frame r _ _) (hkeeps := fun hv => by
    rw [serve, afterReply_vacant hv]
    exact hv)

end

/-! ### Commands and steps -/

theorem exec_patchWriteComplete_flight {s t : State} (h : exec .patchWriteComplete s = .next t) :
    t.composer.flight = s.composer.flight := by
  change execPatchWriteComplete s = .next t at h
  unfold execPatchWriteComplete at h
  split at h
  · exact actOn_keeps (P := fun u => u.composer.flight = s.composer.flight) (fun u hu => (finish_composer u).symm ▸ hu)
      (fun _ => rfl) h rfl
  · rw [← Host.Outcome.next.inj h]

theorem exec_idleOk (c : Instr) (s t : State) (hs : idleOk s) (h : exec c s = .next t) : idleOk t := by
  have hfinish : ∀ u, idleOk u → idleOk (finish u) := fun u hu => hu.ofBlocks (finish_frame u)
  rcases exec_cases h with ⟨tag, r, hr⟩ | hframe
  · exact act_keeps (P := idleOk) hfinish (fun hs => serve_idleOk hs tag r) hr hs
  · by_cases hb : eventBlocks c ⊆ [.outside, .motion, .memory, .templates, .pool, .counters, .feed]
    · exact hs.ofBlocks hframe hb
    cases c
    case stopCompletion => exact act_keeps (P := idleOk) hfinish (fun _ => (enterIdle_vacant _ _).idleOk) h hs
    case mapSwitchComplete p =>
      exact hs.ofFrame (exec_mapSwitchComplete_frame h) (by simp) fun hv => act_of_cannot (hv.switchReached p) h ▸ hv
    case encoderFilterAccept =>
      exact hs.ofVacant (exec_encoderFilterAccept_act h).idle.mp fun hv =>
        act_keeps (P := Vacant) (fun _ hu => hu.finish) encoderAccept_vacant h hv
    case pdFilterAccept i =>
      exact hs.ofFrame (exec_pdFilterAccept_frame h) (by simp) (act_keeps (P := Vacant) (fun _ hu => hu.finish) (pdAccept_vacant i) h)
    case continuousPlacement =>
      exact hs.ofFrame (exec_continuousPlacement_frame h) (by simp) fun hv => act_of_cannot (by rw [hv.continuousEntry]; rfl) h ▸ hv
    case headFault x =>
      exact hs.ofVacant (exec_headFault_act h).idle.mp (act_keeps (P := Vacant) (fun _ hu => hu.finish) (portOffline_vacant x) h)
    case loadGrant x => exact hs.ofFrame (exec_loadGrant_frame h) (by simp) fun hv => act_of_cannot (hv.canGrant x) h ▸ hv
    case loadComplete x =>
      refine hs.ofFrame (exec_loadComplete_frame h) (by simp) fun hv => ?_
      change execLoadComplete x s = .next t at h
      rw [execLoadComplete, hv.loadDone] at h
      exact Host.Outcome.next.inj h ▸ hv
    case fire x k => exact hs.ofFrame (exec_fire_frame h) (by simp) fun hv => act_of_cannot (hv.canFire x k) h ▸ hv
    case fireWindowEnd x k =>
      exact hs.ofFrame (exec_fireWindowEnd_frame h) (by simp) (act_keeps (P := Vacant)
        (event := fun s => s.updRow x k (fun r => { r with window := none })) (fun _ hu => hu.finish) (fun hv => hv.updRow fun _ hr => hr) h)
    case keepWetExpiry x =>
      exact hs.ofFrame (exec_keepWetExpiry_frame h) (by simp) (act_keeps (P := Vacant) (fun _ hu => hu.finish) (keepWetExpire_vacant x) h)
    case keepWetPulse x =>
      exact hs.ofFrame (exec_keepWetPulse_frame h) (by simp) (act_keeps (P := Vacant) (fun _ hu => hu.finish) (keepWetPulse_vacant x) h)
    case composeBegin => exact hs.ofFrame (exec_composeBegin_frame h) (by simp) fun hv => act_of_cannot hv.canCompose h ▸ hv
    case compositionComplete =>
      refine hs.ofFrame (exec_compositionComplete_frame h) (by simp) fun hv => ?_
      change execCompositionComplete s = .next t at h
      rw [execCompositionComplete, hv.flight] at h
      exact Host.Outcome.next.inj h ▸ hv
    case patchWriteComplete =>
      exact hs.ofFrame (exec_patchWriteComplete_frame h) (by simp) fun hv => hv.ofBlocks (exec_patchWriteComplete_frame h)
        (hcomposer := fun _ => exec_patchWriteComplete_flight h)
    case requestTaken =>
      exact act_keeps (P := idleOk) hfinish (takeRequest_keeps (P := idleOk) (fun u x hu => hu.ofBlocks (setFeed_frame u x))
        fun tag r u hu => serve_idleOk hu tag r) h hs
    case resetAssert =>
      obtain rfl := Host.Outcome.next.inj h
      exact (reset_vacant rfl rfl rfl rfl rfl rfl).idleOk
    case resetRelease =>
      obtain rfl := Host.Outcome.next.inj h
      exact hs
    case powerOn =>
      obtain rfl := Host.Outcome.next.inj h
      exact (reset_vacant rfl rfl rfl rfl rfl rfl).idleOk
    all_goals exact absurd (of_decide_eq_true rfl) hb

theorem step_keeps_idleOk {s t : State} (hs : idleOk s) (h : step s = .next t) : idleOk t :=
  step_keeps (P := idleOk) (fun _ _ hu => hu) exec_idleOk (fun u x hu => hu.ofBlocks (setFeed_frame u x))
    (fun u hu => hu.ofVacant (by rw [show (tick u).job = u.job from (samplesOnly_tick u).blocks .job (by simp)]; exact id) tick_vacant) hs h

end Sys2Proof.Machine
end

section
/-! # What the events of a job set in no port and in no configuration (R13, R15)

`SettingsKept`: the port states, the offline-from serials and the configuration are as they were. Every event of a row engine and the
encoder's event keep them; only a request or a head fault changes one. -/

namespace Sys2Proof.Machine

structure SettingsKept (s t : State) : Prop where
  states : ∀ x : Port, (t.ports.get x).state = (s.ports.get x).state
  offline : t.geo.offlineFrom = s.geo.offlineFrom
  configuration : configurationKept s t

namespace SettingsKept

theorem refl (s : State) : SettingsKept s s := ⟨fun _ => rfl, rfl, .refl s⟩

theorem trans {s u t : State} (h : SettingsKept s u) (h' : SettingsKept u t) : SettingsKept s t :=
  ⟨fun x => (h'.states x).trans (h.states x), h'.offline.trans h.offline, h.configuration.trans h'.configuration⟩

theorem foldl {α : Type} {f : State → α → State} (h : ∀ s a, SettingsKept s (f s a)) (l : List α) (s : State) :
    SettingsKept s (l.foldl f s) := by
  induction l generalizing s with
  | nil => exact refl s
  | cons a l ih => exact (h s a).trans (ih (f s a))

theorem ite {c : Prop} [Decidable c] {s t u : State} (ht : SettingsKept s t) (hu : SettingsKept s u) :
    SettingsKept s (if c then t else u) := by
  split
  · exact ht
  · exact hu

theorem ofFrame {bs : List Block} {s t : State} (h : unchangedBut bs s t)
    (hb : bs ⊆ [.outside, .job, .templates, .pool, .composer, .rings, .counters, .feed] := by simp) : SettingsKept s t :=
  ⟨fun x => by rw [show t.ports = s.ports from h.mono hb .ports (by simp)], by rw [show t.geo = s.geo from h.mono hb .geo (by simp)],
    .ofBlocks (h.mono hb)⟩

theorem ofMotion (s : State) {m : Motion} (h : m.sense = s.motion.sense ∧ m.filter = s.motion.filter
    ∧ m.reverseLimit = s.motion.reverseLimit) : SettingsKept s (s.setMotion m) :=
  ⟨fun _ => rfl, rfl, .ofBlocks (setMotion_frame s m) (hmotion := fun _ => h)⟩

/-- One port changed, its state kept. -/
theorem ofPort {bs : List Block} {s t : State} {h : Port} {f : HeadPort → HeadPort} (hframe : unchangedBut bs s t)
    (hports : t.ports = s.ports.upd h f) (hf : ∀ q, (f q).state = q.state)
    (hb : bs ⊆ [.outside, .job, .templates, .pool, .composer, .rings, .ports, .counters, .feed] := by simp) : SettingsKept s t := by
  refine ⟨fun x => ?_, by rw [show t.geo = s.geo from hframe.mono hb .geo (by simp)], .ofBlocks (hframe.mono hb)⟩
  rw [hports, Table.get_upd]
  split
  · exact hf _
  · rfl

theorem updPort (s : State) (h : Port) {f : HeadPort → HeadPort} (hf : ∀ q, (f q).state = q.state) : SettingsKept s (s.updPort h f) :=
  .ofPort (updPort_frame s h f) rfl hf

theorem updRow (s : State) (h : Port) (k : RowIx) (f : Row → Row) : SettingsKept s (s.updRow h k f) := .updPort s h fun _ => rfl

theorem updWet (s : State) (h : Port) (f : HeadPort → KeepWet) : SettingsKept s (s.updPort h (fun q => { q with keepWet := f q })) :=
  .updPort s h fun _ => rfl

theorem withAcc (s : State) (a : Nat) : SettingsKept s (s.setMotion { s.motion with acc := a }) := .ofMotion s ⟨rfl, rfl, rfl⟩

theorem withRawCount (s : State) (n : BitVec 32) : SettingsKept s (s.setMotion { s.motion with rawCount := n }) :=
  .ofMotion s ⟨rfl, rfl, rfl⟩

theorem bump (c : CounterId) (s : State) : SettingsKept s (bump c s) := .ofFrame (bump_frame c s)

theorem placeNotice (n : Notice) (s : State) : SettingsKept s (placeNotice n s) := .ofFrame (placeNotice_frame n s)

end SettingsKept

/-! ### Reports and lines given up -/

theorem raiseFrontier_settings (p : Plane) (serial : Nat) (s : State) : SettingsKept s (raiseFrontier p serial s) :=
  .ofFrame (raiseFrontier_frame p serial s)

theorem release_settings (h : Port) (k : RowIx) (p : Plane) (serial : Nat) (cause : ReleaseCause) (s : State) :
    SettingsKept s (release h k p serial cause s) :=
  .ofPort (f := fun q => { q with rows := q.rows.upd k (fun r => { r with release := max r.release serial }) })
    (release_rows_frame h k p serial cause s) (release_rows h k p serial cause s).1 fun _ => rfl

theorem dropLineOf_settings (h : Port) (k : RowIx) (s : State) : SettingsKept s (dropLineOf h k s) :=
  .ofPort (dropLineOf_frame h k s) (dropLineOf_ports h k s) fun _ => rfl

theorem giveUp_settings (h : Port) (k : RowIx) (p : Plane) (cause : ReleaseCause) (s : State) :
    SettingsKept s (giveUp h k p cause s) := by
  unfold giveUp
  split
  · exact (dropLineOf_settings h k s).trans (release_settings h k p _ cause _)
  · exact dropLineOf_settings h k s

theorem haltRow_settings (h : Port) (s : State) (k : RowIx) : SettingsKept s (haltRow h s k) := by
  unfold haltRow
  split
  · exact .ite (.refl s) (.ite (dropLineOf_settings h k s) (giveUp_settings h k _ _ s))
  · exact dropLineOf_settings h k s

theorem enterHalted_settings (s : State) : SettingsKept s (enterHalted s) :=
  (SettingsKept.ofFrame (stopComposer_frame s)).trans (.foldl (fun u h => .foldl (haltRow_settings h) allRows u) allPorts _)

theorem raiseHalt_settings (first : HaltCause) (cause : JobCause) (s : State) : SettingsKept s (raiseHalt first cause s) := by
  by_cases h : s.job.state = .running ∨ s.job.state = .stopping
  · rw [raiseHalt_of_active first cause h]
    exact (SettingsKept.ofFrame (setJob_frame s _)).trans ((SettingsKept.placeNotice _ _).trans (enterHalted_settings _))
  · rw [raiseHalt_of_inactive first cause h]
    exact .ite (.bump _ s) (.refl s)

/-! ### Lines taken, loaded and fired -/

theorem queueLoad_settings (h : Port) (k : RowIx) (l : PendingLine) (due : Option Nat) (s : State) :
    SettingsKept s (queueLoad h k l due s) := .updPort s h fun _ => rfl

theorem fireLine_settings (h : Port) (k : RowIx) (s : State) : SettingsKept s (fireLine h k s) :=
  (SettingsKept.updRow s h k _).trans (.ite ((SettingsKept.updWet _ h _).trans (.bump _ _)) (.refl _))

theorem prefetch_settings (h : Port) (k : RowIx) (s : State) : SettingsKept s (prefetch h k s) := by
  unfold prefetch
  split
  · split
    · exact queueLoad_settings h k _ none s
    · exact .refl s
  · exact .refl s

theorem fireNow_settings (h : Port) (k : RowIx) (s : State) : SettingsKept s (fireNow h k s) :=
  (fireLine_settings h k s).trans ((SettingsKept.ite (.bump _ _) (.refl _)).trans (prefetch_settings h k _))

theorem settlePrevious_settings (h : Port) (k : RowIx) (p : Plane) (s : State) : SettingsKept s (settlePrevious h k p s) :=
  .ite (.ite ((fireLine_settings h k s).trans (.bump _ _)) ((giveUp_settings h k p _ s).trans (.bump _ _))) (.refl s)

theorem takeDue_settings (h : Port) (k : RowIx) (p : Plane) (s : State) : SettingsKept s (takeDue h k p s) := by
  unfold takeDue
  split
  · exact .refl s
  · next serial _ =>
    refine (raiseFrontier_settings p serial s).trans (.ite (.updRow _ h k _) ?_)
    split
    · exact queueLoad_settings h k _ _ _
    · exact release_settings h k p serial _ _

theorem haltedTick_settings (h : Port) (k : RowIx) (p : Plane) (s : State) : SettingsKept s (haltedTick h k p s) := by
  unfold haltedTick
  split
  · exact .refl s
  · exact (raiseFrontier_settings p _ s).trans (release_settings h k p _ _ _)

theorem rowTick_settings (h : Port) (s : State) (k : RowIx) : SettingsKept s (rowTick h s k) := by
  unfold rowTick
  split
  · exact .refl s
  · next p _ => exact .ite (haltedTick_settings h k p s) ((settlePrevious_settings h k p s).trans (takeDue_settings h k p _))

theorem rowsTick_settings (s : State) : SettingsKept s (rowsTick s) :=
  .foldl (fun u h => .ite (.foldl (rowTick_settings h) (u.rowsOf h) u) (.refl u)) allPorts s

theorem grantLoad_settings {h : Port} {s : State} (hc : s.canGrant h = true) : SettingsKept s (grantLoad h s) := by
  obtain ⟨-, hne, p, hplane⟩ := canGrant_iff.mp hc
  obtain ⟨k, rest, hfront⟩ := List.exists_cons_of_ne_nil hne
  have hgrant : SettingsKept s (grantRow h k rest s) := .updPort s h fun _ => rfl
  rw [grantLoad_eq hfront hplane]
  cases (s.row h k).line with
  | some l => exact hgrant.trans (raiseFrontier_settings p _ _)
  | none => exact hgrant

theorem completeLoad_settings (h : Port) (k : RowIx) (p : Plane) (serial block : Nat) (s : State) :
    SettingsKept s (completeLoad h k p serial block s) :=
  (SettingsKept.ofFrame (countReads_frame block (s.loadReads p h k) s)).trans ((SettingsKept.updRow _ h k _).trans
    (release_settings h k p serial _ _))

theorem keepWetPulse_settings (h : Port) (s : State) : SettingsKept s (keepWetPulse h s) := by
  have hrows : SettingsKept s ((s.rowsOf h).foldl (fun u k => u.updRow h k (fun r => r.startWindow u.now (s.geo.heads.get h).window)) s) :=
    .foldl (fun u k => .updRow u h k _) _ s
  exact hrows.trans ((SettingsKept.updWet _ h _).trans (.bump _ _))

theorem keepWetExpire_settings (h : Port) (s : State) : SettingsKept s (keepWetExpire h s) :=
  .ite (keepWetPulse_settings h s) (.updWet s h _)

/-! ### The encoder's event -/

theorem Motion.applyPending_settings (m : Motion) : m.applyPending.sense = m.sense ∧ m.applyPending.filter = m.filter
    ∧ m.applyPending.reverseLimit = m.reverseLimit := by
  unfold Motion.applyPending
  split <;> exact ⟨rfl, rfl, rfl⟩

theorem placementTick_settings (s : State) : SettingsKept s (placementTick s) := by
  have htriggers : (placementTick s).place.triggers = s.place.triggers := by
    unfold placementTick
    split
    · split
      · rw [retirePlacement_place]
      · rfl
    · rfl
  refine ⟨fun x => by rw [show (placementTick s).ports = s.ports from placementTick_frame s .ports (by simp)],
    by rw [show (placementTick s).geo = s.geo from placementTick_frame s .geo (by simp)],
    .ofBlocks (placementTick_frame s) (hplace := fun _ i => ?_)⟩
  rw [htriggers]
  exact ⟨rfl, rfl, rfl⟩

theorem reTravel_settings (s : State) (p : Int) : SettingsKept s (s.setMotion (s.motion.reTravel p s.now)) := by
  rw [Motion.reTravel]
  exact .ofMotion s (Motion.applyPending_settings _)

theorem forwardBoundary_settings (s : State) : SettingsKept s (forwardBoundary s) := by
  unfold forwardBoundary
  dsimp only
  split
  · have hticked : SettingsKept s (s.setMotion (s.motion.printTick (s.motion.p + 1) s.now)) := by
      rw [Motion.printTick]
      exact .ofMotion s (Motion.applyPending_settings _)
    exact hticked.trans ((placementTick_settings _).trans (rowsTick_settings _))
  · exact (reTravel_settings s _).trans (.bump _ _)

theorem reverseBoundary_settings (s : State) : SettingsKept s (reverseBoundary s) := by
  unfold reverseBoundary
  dsimp only
  exact ((reTravel_settings s _).trans (.bump _ _)).trans (.ite (raiseHalt_settings _ _ _) (.refl _))

theorem accumulateForward_settings (s : State) : SettingsKept s (accumulateForward s) := by
  unfold accumulateForward
  split
  · exact .ite ((SettingsKept.withAcc s _).trans (forwardBoundary_settings _)) (.withAcc s _)
  · exact .refl s

theorem accumulateReverse_settings (s : State) : SettingsKept s (accumulateReverse s) := by
  unfold accumulateReverse
  split
  · exact .ite ((SettingsKept.withAcc s _).trans (reverseBoundary_settings _)) (.withAcc s _)
  · exact .refl s

theorem encoderAccept_settings (s : State) : SettingsKept s (encoderAccept s) := by
  have htaken : SettingsKept s (s.setMotion s.motion.taken) := .ofMotion s ⟨rfl, rfl, rfl⟩
  rw [encoderAccept_eq]
  split
  · exact htaken.trans ((SettingsKept.withRawCount _ _).trans (.ite (.refl _) (accumulateForward_settings _)))
  · exact htaken.trans ((SettingsKept.withRawCount _ _).trans (.ite (.refl _) (accumulateReverse_settings _)))
  · exact htaken.trans (.bump _ _)

end Sys2Proof.Machine
end

section
/-! # What each command sets (R13, R15)

`CommandKind` is the one case split over the commands: all that a proof about the port states, the configuration or the owners needs of
a command. -/

namespace Sys2Proof.Machine

namespace SettingsKept

theorem ofGeo (s : State) {g : Geometry} (hplanes : g.planes = s.geo.planes) (hheads : g.heads = s.geo.heads)
    (hseams : g.seams = s.geo.seams) (hoffline : g.offlineFrom = s.geo.offlineFrom) : SettingsKept s (s.setGeo g) :=
  ⟨fun _ => rfl, hoffline, .ofBlocks (setGeo_frame s g) (hgeo := fun _ => ⟨hplanes, hheads, hseams⟩)⟩

theorem ofPlace (s : State) {x : PlacementUnit} (h : triggersKept s (s.setPlace x)) : SettingsKept s (s.setPlace x) :=
  ⟨fun _ => rfl, rfl, .ofBlocks (setPlace_frame s x) (hplace := fun _ => h)⟩

/-- The settings of the inputs untouched, whatever else the Placement Unit does. -/
theorem ofSameTriggers (s : State) {x : PlacementUnit} (h : x.triggers = s.place.triggers) : SettingsKept s (s.setPlace x) :=
  .ofPlace s fun i => by
    rw [State.setPlace_place, h]
    exact ⟨rfl, rfl, rfl⟩

/-- One input changed outside its settings. -/
theorem ofTrigger (s : State) {x : PlacementUnit} {i : PdIx} {f : Trigger → Trigger} (h : x.triggers = s.place.triggers.upd i f)
    (hf : ∀ r, (f r).edge = r.edge ∧ (f r).filter = r.filter ∧ (f r).lockout = r.lockout) : SettingsKept s (s.setPlace x) :=
  .ofPlace s fun j => by
    rw [State.setPlace_place, h, Table.get_upd]
    split
    · exact hf _
    · exact ⟨rfl, rfl, rfl⟩

theorem ofMemory (s : State) {m : FrameMemory} (h : m.plan = s.memory.plan) : SettingsKept s (s.setMemory m) :=
  ⟨fun _ => rfl, rfl, .ofBlocks (setMemory_frame s m) (hplan := fun _ => h)⟩

end SettingsKept

/-! ### Switches and the entries to IDLE -/

theorem completeSwitch_settings (p : Plane) (s : State) : SettingsKept s (completeSwitch p s) :=
  (SettingsKept.ofGeo s (g := s.geo.completeSwitch p) rfl rfl rfl rfl).trans (.placeNotice _ _)

theorem completeSwitches_settings (s : State) : SettingsKept s (completeSwitches s) :=
  .foldl (fun u p => .ite (completeSwitch_settings p u) (.refl u)) allPlanes s

theorem dropAllLines_settings (s : State) : SettingsKept s (dropAllLines s) :=
  ⟨fun x => by rw [dropAllLines, State.setPorts_ports, Table.get_ofFun]; rfl, rfl, .ofBlocks (setPorts_frame s _)⟩

theorem clearJob_settings (s : State) : SettingsKept s (clearJob s) := by
  have hmotion : SettingsKept s (s.setMotion s.motion.toIdle) := .ofMotion s ⟨rfl, rfl, rfl⟩
  have hlist : ∀ u : State, SettingsKept u (u.setPlace { u.place with list := [] }) := fun u => .ofSameTriggers u rfl
  have hrings : ∀ u : State, SettingsKept u (u.setRings (.all 6 .emptied)) := fun u => .ofFrame (setRings_frame u _)
  exact hmotion.trans ((hlist _).trans ((SettingsKept.ofFrame (clearComposer_frame _)).trans ((hrings _).trans
    ((dropAllLines_settings _).trans (completeSwitches_settings _)))))

theorem enterIdle_settings (cause : JobCause) (s : State) : SettingsKept s (enterIdle cause s) := by
  rw [enterIdle_eq]
  exact (SettingsKept.ofFrame (toIdle_frame cause s)).trans ((clearJob_settings _).trans (.ofFrame (closeAllDrained_frame _)))

/-! ### Placements and the frame memory -/

theorem offerEdge_settings (i : PdIx) (s : State) : SettingsKept s (offerEdge i s) := by
  have hlockout : ∀ (u : State) (x : PlacementUnit), x.triggers = u.place.triggers →
      SettingsKept u (u.setPlace (x.startLockout i s.motion.h)) := fun u x hx =>
    .ofTrigger u (i := i) (f := fun t => { t with lockoutEnd := s.motion.h + t.lockout }) (by rw [← hx]; rfl) fun _ => ⟨rfl, rfl, rfl⟩
  unfold offerEdge
  split
  · exact .refl s
  · exact .bump _ s
  · exact .bump _ s
  · exact (SettingsKept.bump _ s).trans (hlockout _ _ (by rw [bump_place]))
  · exact (SettingsKept.bump _ s).trans (hlockout _ _ (by rw [bump_place]))
  · exact hlockout s _ rfl

theorem pdAccept_settings (i : PdIx) (s : State) : SettingsKept s (pdAccept i s) := by
  have haccepted : SettingsKept s (s.setPlace
      { s.place with triggers := s.place.triggers.upd i (fun t => { t with input := t.input.accept }) }) :=
    .ofTrigger s (f := fun t => { t with input := t.input.accept }) rfl fun _ => ⟨rfl, rfl, rfl⟩
  exact haccepted.trans (.ite (offerEdge_settings i _) (.refl _))

theorem placeContinuous_settings (s : State) : SettingsKept s (placeContinuous s) := by
  unfold placeContinuous
  split
  · exact .ofSameTriggers s rfl
  · exact .refl s

theorem completeComposition_settings (f : Composition) (s : State) : SettingsKept s (completeComposition f s) := by
  have hlines : SettingsKept s (f.targets.foldl (writeLine f) s) := by
    have hframe := unchangedBut_foldl (writeLine_frame f) f.targets s
    exact ⟨fun x => by rw [show (f.targets.foldl (writeLine f) s).ports = s.ports from hframe .ports (by simp)],
      by rw [show (f.targets.foldl (writeLine f) s).geo = s.geo from hframe .geo (by simp)],
      .ofBlocks hframe (hplan := fun _ => writeLines_plan f f.targets s)⟩
  have hcommits : ∀ u : State, SettingsKept u (f.targets.foldl (fun v t => commitTo v.composer.serial t.1 v) u) :=
    fun u => .foldl (fun v t => .ofFrame (commitTo_frame v.composer.serial t.1 v)) f.targets u
  have hfreed : ∀ (u : State) (x : PatchPool) (c : Composer), SettingsKept u ((u.setPool x).setComposer c) := fun u x c =>
    (SettingsKept.ofFrame (setPool_frame u x)).trans (.ofFrame (setComposer_frame _ c))
  unfold completeComposition
  exact (hlines.trans (hcommits _)).trans (hfreed _ _ _)

theorem finishLineWrite_settings (w : TemplateWrite) (s : State) : SettingsKept s (finishLineWrite w s) := by
  have hwritten : SettingsKept s (s.setMemory (s.memory.writeBlock w.block w.pixels)) := .ofMemory s (by simp)
  exact hwritten.trans ((SettingsKept.ofFrame (setTemplates_frame _ _)).trans (.ite (.placeNotice _ _) (.refl _)))

theorem finishPatchWrite_settings (w : PatchWrite) (s : State) : SettingsKept s (finishPatchWrite w s) := by
  have hwritten : SettingsKept s (s.setMemory (s.memory.writeBlock w.entry.slot w.pixels)) := .ofMemory s (by simp)
  exact hwritten.trans ((SettingsKept.ofFrame (setPool_frame _ _)).trans (.ofFrame (setComposer_frame _ _)))

/-! ### Requests -/

theorem startJob_settings (s : State) : SettingsKept s (startJob s) := by
  refine ⟨fun x => ?_, by rw [show (startJob s).geo = s.geo from startJob_frame s .geo (by simp)],
    .ofBlocks (startJob_frame s) (hmotion := fun _ => ?_) (hplace := fun _ i => ?_)⟩
  · rw [startJob_port]
    split <;> rfl
  · simp [startJob, setJobState]
  · simp [startJob, setJobState]

theorem ownStartJob_settings (s : State) : SettingsKept s (ownStartJob s).1 := by
  unfold ownStartJob
  split
  · exact .refl s
  · split
    · exact .refl s
    · exact startJob_settings s

theorem ownStopJob_settings (s : State) : SettingsKept s (ownStopJob s).1 := by
  unfold ownStopJob
  split
  · exact .refl s
  · exact ((SettingsKept.ofFrame (setJobState_frame _ _ s)).trans (.ofFrame (stopComposer_frame _))).trans
      (.ite (enterIdle_settings _ _) (.refl _))

theorem ownSetNozzles_settings (port row : Byte) (first count : BitVec 16) (statuses : List Byte) (s : State) :
    SettingsKept s (ownSetNozzles port row first count statuses s).1 := by
  unfold ownSetNozzles
  split
  · exact .refl s
  · split
    · exact .refl s
    · split
      · exact .refl s
      · split
        · exact .ofGeo s rfl rfl rfl rfl
        · split
          · exact .refl s
          · exact .ofGeo s rfl rfl rfl rfl
      · exact .ofGeo s rfl rfl rfl rfl

theorem ownSetRatio_settings (n m : BitVec 24) (s : State) : SettingsKept s (ownSetRatio n m s).1 := by
  unfold ownSetRatio
  split
  · exact .refl s
  · split
    · exact .ofMotion s ⟨rfl, rfl, rfl⟩
    · exact .ofMotion s ⟨rfl, rfl, rfl⟩

theorem ownSetKeepWet_settings (port interval mode : Byte) (s : State) : SettingsKept s (ownSetKeepWet port interval mode s).1 := by
  unfold ownSetKeepWet
  split
  · exact .updWet s _ _
  · exact .refl s

theorem ownAbort_settings (s : State) : SettingsKept s (ownAbort s).1 := by
  unfold ownAbort
  dsimp only
  exact enterIdle_settings .abort s

/-- R15: a configuration request in a job changes nothing. -/
theorem handle_configuration {r : Request} {s : State} (hr : isConfiguration r = true) (hj : s.job.state ≠ .idle) :
    (handle r s).1 = s := by
  cases hout : outOfRange r with
  | true => rw [handle_outOfRange s hout]
  | false => rw [handle_held hr hout hj]

/-- Only a configuration request and Restart can set a port or the configuration. -/
theorem handle_settings {r : Request} (s : State) (hr : isConfiguration r = false) (hrestart : r ≠ .restart) :
    SettingsKept s (handle r s).1 := by
  by_cases hb : requestBlocks r ⊆ [.outside, .job, .templates, .pool, .composer, .rings, .counters, .feed]
  · exact .ofFrame (handle_frame r s) hb
  · cases r
    case setNozzles => exact ownSetNozzles_settings _ _ _ _ _ s
    case setRatio => exact ownSetRatio_settings _ _ s
    case setKeepWet => exact ownSetKeepWet_settings _ _ _ s
    case startJob => exact ownStartJob_settings s
    case stopJob => exact ownStopJob_settings s
    case abort => rw [show handle .abort = ownAbort from rfl]; exact ownAbort_settings s
    case restart => exact absurd rfl hrestart
    case setPlane | setHead | setSeam | setMotion | setTrigger | setMemoryPlan | restoreHead => cases hr
    all_goals exact absurd (by simp [requestBlocks]) hb

theorem afterReply_settings (r : Request) (x : Result) (s : State) : SettingsKept s (afterReply r x s) := by
  have hswitch : ∀ port : Byte, SettingsKept s (completeStaged port x s) := fun port => by
    unfold completeStaged
    split
    · split
      · exact .ite (completeSwitch_settings _ s) (.refl s)
      · exact .refl s
    · exact .refl s
  unfold afterReply
  split
  · exact hswitch _
  · exact placeContinuous_settings s
  · exact .refl s

/-- What follows the handling of a request sets no port and no configuration. -/
theorem serve_settings (tag : Byte) (r : Request) (s : State) : SettingsKept (handle r s).1 (serve tag r s) :=
  (SettingsKept.ofFrame (placeReply_frame _ _ _ _)).trans (afterReply_settings r _ _)

/-! ### Commands -/

/-- What a command is to the port states, the configuration and the owners. Each of its events ends with what the link does. -/
inductive CommandKind (s t : State) : Prop
  | plain (hset : SettingsKept s t) (hgeo : t.geo = s.geo)
  | toIdle (hset : SettingsKept s t) (hidle : t.job.state = .idle)
  | switched (p : Plane) (hreached : switchReached s p = true) (h : unchangedBut [.feed] (completeSwitch p s) t)
  | offline (x : Port) (hready : (s.ports.get x).state = .ready) (h : unchangedBut [.feed] (portOffline x s) t)
  | served (u : State) (tag : Byte) (r : Request) (hu : unchangedBut [.feed] s u) (h : unchangedBut [.feed] (serve tag r u) t)
  | reset (hgeo : t.geo = State.reset.geo) (hports : t.ports = State.reset.ports) (hjob : t.job = State.reset.job)

theorem CommandKind.same (s : State) : CommandKind s s := .plain (.refl s) rfl

theorem CommandKind.ofFrame {bs : List Block} {s t : State} (h : unchangedBut bs s t)
    (hb : bs ⊆ [.outside, .job, .templates, .pool, .composer, .rings, .counters, .feed] := by simp) : CommandKind s t :=
  .plain (.ofFrame h hb) (h.mono hb .geo (by simp))

/-- A guarded command whose event sets nothing and leaves the Geometry Store alone. -/
theorem CommandKind.ofAct {s t : State} {can : Bool} {event : State → State} (hset : can = true → SettingsKept s (event s))
    (hgeo : (event s).geo = s.geo) (h : act s can event = .next t) : CommandKind s t := by
  rcases act_cases h with ⟨hcan, -, rfl⟩ | ⟨-, rfl⟩
  · exact .plain ((hset hcan).trans (.ofFrame (finish_frame _))) ((finish_frame _ .geo (by simp)).trans hgeo)
  · exact .same _

theorem CommandKind.ofActOn {s t : State} {blocks : List Nat} {event : State → State} (hset : SettingsKept s (event s))
    (hgeo : (event s).geo = s.geo) (h : actOn s blocks event = .next t) : CommandKind s t := by
  rcases actOn_cases h with ⟨-, rfl⟩ | ⟨-, rfl⟩
  · exact .plain (hset.trans (.ofFrame (finish_frame _))) ((finish_frame _ .geo (by simp)).trans hgeo)
  · exact .same _

/-- The request at the head of the queue is answered or served (R171). -/
theorem takeRequest_kind (s : State) : unchangedBut [.feed] s (takeRequest s)
    ∨ ∃ u tag r, unchangedBut [.feed] s u ∧ takeRequest s = serve tag r u := by
  unfold takeRequest
  split
  · next q rest _ =>
    have htaken := setFeed_frame s { s.feed with requests := rest }
    dsimp only
    split
    · exact .inl (unchangedBut_trans htaken (placeReply_frame _ _ _ _))
    · exact .inr ⟨_, _, _, htaken, rfl⟩
  · exact .inl (unchangedBut_refl _ s)

theorem exec_requestTaken_kind {s t : State} (h : exec .requestTaken s = .next t) : CommandKind s t := by
  rcases act_cases h with ⟨-, -, rfl⟩ | ⟨-, rfl⟩
  · rcases takeRequest_kind s with hfeed | ⟨u, tag, r, hu, htaken⟩
    · exact .ofFrame (unchangedBut_trans hfeed (finish_frame _))
    · exact .served u tag r hu (htaken ▸ finish_frame _)
  · exact .same _

/-- A guarded command that enters IDLE. -/
theorem CommandKind.ofIdle {s t : State} {can : Bool} {event : State → State} (hset : SettingsKept s (event s))
    (hidle : (event s).job.state = .idle) (h : act s can event = .next t) : CommandKind s t := by
  rcases act_cases h with ⟨-, -, rfl⟩ | ⟨-, rfl⟩
  · exact .toIdle (hset.trans (.ofFrame (finish_frame _))) ((congrArg Job.state (finish_job _)).trans hidle)
  · exact .same _

theorem exec_kind {c : Instr} {s t : State} (h : exec c s = .next t) : CommandKind s t := by
  rcases exec_cases h with ⟨tag, r, hr⟩ | hframe
  · rcases act_cases hr with ⟨-, -, rfl⟩ | ⟨-, rfl⟩
    · exact .served s tag r (unchangedBut_refl _ s) (finish_frame _)
    · exact .same _
  · by_cases hb : eventBlocks c ⊆ [.outside, .job, .templates, .pool, .composer, .rings, .counters, .feed]
    · exact .ofFrame hframe hb
    cases c
    case stopCompletion => exact .ofIdle (enterIdle_settings .stopComplete s) (enterIdle_vacant .stopComplete s).idle h
    case mapSwitchComplete p =>
      rcases act_cases h with ⟨hcan, -, rfl⟩ | ⟨-, rfl⟩
      · exact .switched p hcan (finish_frame _)
      · exact .same _
    case encoderFilterAccept => exact .ofAct (fun _ => encoderAccept_settings s) (encoderAccept_frame s .geo (by simp)) h
    case pdFilterAccept i => exact .ofAct (fun _ => pdAccept_settings i s) (pdAccept_frame i s .geo (by simp)) h
    case continuousPlacement => exact .ofAct (fun _ => placeContinuous_settings s) (placeContinuous_frame s .geo (by simp)) h
    case headFault x =>
      rcases act_cases h with ⟨hcan, -, rfl⟩ | ⟨-, rfl⟩
      · have hready : (s.ports.get x).state = .ready := by
          simp only [State.faultReached, Bool.and_eq_true, beq_iff_eq] at hcan
          exact hcan.1
        exact .offline x hready (finish_frame _)
      · exact .same _
    case loadGrant x => exact .ofAct grantLoad_settings (grantLoad_frame x s .geo (by simp)) h
    case loadComplete x =>
      change execLoadComplete x s = .next t at h
      unfold execLoadComplete at h
      split at h
      · exact .ofActOn (completeLoad_settings _ _ _ _ _ s) (completeLoad_frame _ _ _ _ _ s .geo (by simp)) h
      · exact Host.Outcome.next.inj h ▸ .same _
    case fire x k => exact .ofAct (fun _ => fireNow_settings x k s) (fireNow_frame x k s .geo (by simp)) h
    case fireWindowEnd x k =>
      exact .ofAct (event := fun s => s.updRow x k (fun r => { r with window := none })) (fun _ => .updRow s x k _) rfl h
    case keepWetExpiry x => exact .ofAct (fun _ => keepWetExpire_settings x s) (keepWetExpire_frame x s .geo (by simp)) h
    case keepWetPulse x => exact .ofAct (fun _ => keepWetPulse_settings x s) (keepWetPulse_frame x s .geo (by simp)) h
    case compositionComplete =>
      change execCompositionComplete s = .next t at h
      unfold execCompositionComplete at h
      split at h
      · exact .ofActOn (completeComposition_settings _ s) (completeComposition_frame _ s .geo (by simp)) h
      · exact Host.Outcome.next.inj h ▸ .same _
    case templateLineWriteComplete =>
      change execTemplateLineWriteComplete s = .next t at h
      unfold execTemplateLineWriteComplete at h
      split at h
      · exact .ofActOn (finishLineWrite_settings _ s) (finishLineWrite_frame _ s .geo (by simp)) h
      · exact Host.Outcome.next.inj h ▸ .same _
    case patchWriteComplete =>
      change execPatchWriteComplete s = .next t at h
      unfold execPatchWriteComplete at h
      split at h
      · exact .ofActOn (finishPatchWrite_settings _ s) (finishPatchWrite_frame _ s .geo (by simp)) h
      · exact Host.Outcome.next.inj h ▸ .same _
    case requestTaken => exact exec_requestTaken_kind h
    case resetAssert =>
      obtain rfl := Host.Outcome.next.inj h
      exact .reset rfl rfl rfl
    case resetRelease =>
      obtain rfl := Host.Outcome.next.inj h
      exact .plain ⟨fun _ => rfl, rfl, .refl s⟩ rfl
    case powerOn =>
      obtain rfl := Host.Outcome.next.inj h
      exact .reset rfl rfl rfl
    all_goals exact absurd (of_decide_eq_true rfl) hb

end Sys2Proof.Machine
end

section
/-! # Offline-from serials and the configuration of a job (R13, R15, R128, R129) -/

namespace Sys2Proof.Machine

/-- The state in which the command of a step begins: the one before it without the command, which is no part of any block. -/
theorem step_kind {s t : State} (h : step s = .next t) : ∃ u, unchangedBut [.outside] s u ∧ CommandKind u t := by
  rcases step_cases h with ⟨c, rest, hc⟩ | ⟨x, rfl⟩ | rfl
  · exact ⟨_, fun b hb => by cases b <;> simp_all [sameBlock], exec_kind hc⟩
  · exact ⟨s, unchangedBut_refl _ s, .ofFrame (setFeed_frame s x)⟩
  · have hsamples := samplesOnly_tick s
    have hgeo : (tick s).geo = s.geo := hsamples.blocks .geo (by simp)
    refine ⟨s, unchangedBut_refl _ s, .plain ⟨fun x => ?_, by rw [hgeo], hsamples.configuration⟩ hgeo⟩
    obtain ⟨n, hn⟩ := hsamples.ports x
    rw [hn]

theorem restartCleared_settings (s : State) : SettingsKept s (restartCleared s) := by
  have hcounts : SettingsKept s ((s.setCounters s.counters.clearCounts.clearAnnounced).setFeed { s.feed with noticesLost := false }) :=
    (SettingsKept.ofFrame (setCounters_frame s _)).trans (.ofFrame (setFeed_frame _ _))
  unfold restartCleared
  exact hcounts.trans ((SettingsKept.ofFrame (toIdle_frame _ _)).trans ((SettingsKept.ofFrame (setJob_frame _ _)).trans
    (clearJob_settings _)))

/-! ### Only an OFFLINE port has an offline-from serial -/

section

variable {s t : State} (hs : offlineOk s)
include hs

theorem offlineOk.ofSettings (h : SettingsKept s t) : offlineOk t := fun x hx => by
  rw [h.offline]
  exact hs x (h.states x ▸ hx)

/-- One port changed, and its serial with it. -/
theorem offlineOk.ofPort {x : Port} (hothers : ∀ g : Port, g ≠ x →
      (t.ports.get g).state = (s.ports.get g).state ∧ t.geo.offlineFrom.get g = s.geo.offlineFrom.get g)
    (hx : (t.ports.get x).state ≠ .offline → t.geo.offlineFrom.get x = none) : offlineOk t := fun g hg => by
  by_cases he : g = x
  · subst he
    exact hx hg
  · obtain ⟨hstate, hfrom⟩ := hothers g he
    rw [hfrom]
    exact hs g (hstate ▸ hg)

theorem offlineOk.ofFrame {bs : List Block} (h : unchangedBut bs s t) (hb : .ports ∉ bs := by simp)
    (hgeo : t.geo.offlineFrom = s.geo.offlineFrom) : offlineOk t := fun x hx => by
  rw [hgeo]
  exact hs x ((h .ports hb : t.ports = s.ports) ▸ hx)

theorem portOffline_offlineOk (x : Port) : offlineOk (portOffline x s) := by
  have hplain : s.job.state = .idle ∨ s.planeOf x = none → offlineOk (portOffline x s) := fun hout => by
    rw [portOffline_plain hout, setPortState, updPort_updPort]
    refine hs.ofPort (x := x) (fun g hg => ?_) fun hstate => absurd ?_ hstate
    · rw [placeNotice_ports, placeNotice_geo, State.updPort_ports, Table.get_upd_ne _ _ hg.symm]
      exact ⟨rfl, rfl⟩
    · rw [placeNotice_ports, State.updPort_ports, Table.get_upd_self]
  by_cases hj : s.job.state = .idle
  · exact hplain (.inl hj)
  · rcases hplane : s.planeOf x with _ | p
    · exact hplain (.inr hplane)
    · have hhead : offlineOk (headOffline x p s) := by
        have hoffline : ((headOffline x p s).ports.get x).state = .offline := by
          rw [headOffline_port]
          dsimp only
          exact (linesGivenUp_port x p s).1
        refine hs.ofPort (x := x) (fun g hg => ?_) (absurd hoffline)
        rw [headOffline_ports x p s hg, headOffline_geo, Table.get_put_ne _ _ hg.symm]
        exact ⟨rfl, rfl⟩
      rw [portOffline_inJob hj hplane, offlineInJob_eq]
      split
      · exact hhead.ofSettings (raiseHalt_settings _ _ _)
      · exact hhead

theorem portRecovers_offlineOk (x : Port) : offlineOk (portRecovers x s) := by
  rw [portRecovers_eq]
  refine hs.ofPort (x := x) (fun g hg => ?_) fun _ => ?_
  · simp [Table.get_upd_ne _ _ hg.symm, Table.get_put_ne _ _ hg.symm]
  · simp

theorem setHeadPort_offlineOk (x : Port) (assigned : Bool) : offlineOk (setHeadPort x assigned s) := by
  have hkeeps := setHeadPort_keeps x assigned s
  refine hs.ofPort (x := x) (fun g hg => ?_) fun hstate => ?_
  · obtain ⟨hport, hfrom⟩ := hkeeps.others g hg
    exact ⟨by rw [hport], hfrom⟩
  · rcases setHeadPort_cases x assigned s with ⟨-, hout, e⟩ | ⟨-, -, e⟩ | ⟨-, e⟩ <;> rw [e] at hstate ⊢
    · rw [portReady_eq, placeNotice_geo, State.updPort_geo]
      exact hs x (by rw [hout]; exact nofun)
    · simp [portUnassigned_eq]
    · exact hs x hstate

theorem ownSetHead_offlineOk (port plane : Byte) (first : BitVec 16) (rows : Byte) (nozzles : BitVec 16) (d f : Table 4 Nat)
    (window : BitVec 16) (policy : Byte) : offlineOk (ownSetHead port plane first rows nozzles d f window policy s).1 := by
  unfold ownSetHead
  split
  · next h r _ _ =>
    split
    · exact hs
    · exact setHeadPort_offlineOk (s := s.setGeo { s.geo with heads := s.geo.heads.put h r }) hs h _
  · exact hs

theorem ownRestoreHead_offlineOk (port : Byte) : offlineOk (ownRestoreHead port s).1 := by
  unfold ownRestoreHead
  split
  · exact hs
  · split
    · exact hs
    · split
      · exact hs
      · split
        · exact hs
        · exact portRecovers_offlineOk hs _

theorem recoverPort_offlineOk (x : Port) : offlineOk (recoverPort s x) := by
  unfold recoverPort
  split
  · exact portRecovers_offlineOk hs x
  · exact hs

theorem recoverPorts_offlineOk : offlineOk (allPorts.foldl recoverPort s) :=
  foldl_keeps (P := offlineOk) (fun _ x hv => recoverPort_offlineOk hv x) allPorts hs

theorem restartRest_offlineOk : offlineOk (restartRest s) := by
  obtain ⟨v, hv⟩ : ∃ v, v = closeAllChannels ((s.setMotion { s.motion with rawCount := 0 }).setTemplates
    { s.templates with writing := none }) := ⟨_, rfl⟩
  have hclosed : SettingsKept s v := hv ▸ (SettingsKept.withRawCount s 0).trans
    ((SettingsKept.ofFrame (setTemplates_frame _ _)).trans (.ofFrame (closeAllChannels_frame _)))
  have hrest : restartRest s = allPorts.foldl recoverPort v := by
    rw [hv]
    rfl
  rw [hrest]
  exact recoverPorts_offlineOk (hs.ofSettings hclosed)

theorem ownRestart_offlineOk : offlineOk (ownRestart s).1 := by
  obtain ⟨u, hu⟩ : ∃ u, u = restartCleared s := ⟨_, rfl⟩
  have hcleared : SettingsKept s u := hu ▸ restartCleared_settings s
  have hrest : (ownRestart s).1 = restartRest u := by rw [hu, ownRestart_eq]
  rw [hrest]
  exact restartRest_offlineOk (hs.ofSettings hcleared)

theorem handle_offlineOk (r : Request) : offlineOk (handle r s).1 := by
  by_cases hset : isConfiguration r = false ∧ r ≠ .restart
  · exact hs.ofSettings (handle_settings s hset.1 hset.2)
  cases r
  case setPlane =>
    refine hs.ofFrame (handle_frame _ s) (by simp [requestBlocks]) ?_
    change (ownSetPlane _ _ _ _ _ _ s).1.geo.offlineFrom = _
    unfold ownSetPlane
    split
    · split
      · rfl
      · split <;> rfl
    · rfl
  case setSeam =>
    refine hs.ofFrame (handle_frame _ s) (by simp [requestBlocks]) ?_
    change (ownSetSeam _ _ _ _ _ s).1.geo.offlineFrom = _
    unfold ownSetSeam
    split
    · split <;> rfl
    · rfl
  case setMotion | setTrigger | setMemoryPlan =>
    refine hs.ofFrame (handle_frame _ s) (by simp [requestBlocks]) (congrArg Geometry.offlineFrom ?_)
    exact handle_frame _ s .geo (by simp [requestBlocks])
  case setHead => exact ownSetHead_offlineOk hs _ _ _ _ _ _ _ _ _
  case restoreHead => exact ownRestoreHead_offlineOk hs _
  case restart => rw [show handle .restart = ownRestart from rfl]; exact ownRestart_offlineOk hs
  all_goals exact absurd ⟨rfl, nofun⟩ hset

theorem step_keeps_offlineOk (h : step s = .next t) : offlineOk t := by
  obtain ⟨u, hpending, hkind⟩ := step_kind h
  have hu : offlineOk u := hs.ofSettings (.ofFrame hpending)
  cases hkind with
  | plain hset _ => exact hu.ofSettings hset
  | toIdle hset _ => exact hu.ofSettings hset
  | switched p _ ht => exact (hu.ofSettings (completeSwitch_settings p u)).ofSettings (.ofFrame ht)
  | offline x _ ht => exact (portOffline_offlineOk hu x).ofSettings (.ofFrame ht)
  | served v tag r hv ht =>
    exact ((handle_offlineOk (hu.ofSettings (.ofFrame hv)) r).ofSettings (serve_settings tag r v)).ofSettings (.ofFrame ht)
  | reset hgeo _ _ =>
    intro x _
    obtain ⟨-, hnone, -⟩ := reset_port x
    rw [hgeo, hnone]

end

/-! ### The configuration of a job -/

theorem portOffline_configuration (x : Port) (s : State) : configurationKept s (portOffline x s) := by
  by_cases hplain : s.job.state = .idle ∨ s.planeOf x = none
  · rw [portOffline_plain hplain, setPortState]
    exact .ofBlocks ((updPort_frame s x _).andThen ((updPort_frame _ x _).andThen (placeNotice_frame _ _) (ds := [.ports, .feed])
      (by simp) (by simp)) (ds := [.ports, .feed]) (by simp) (by simp))
  · obtain ⟨hj, hplane⟩ := not_or.mp hplain
    obtain ⟨p, hp⟩ := Option.ne_none_iff_exists'.mp hplane
    rw [portOffline_inJob hj hp, offlineInJob_eq]
    have hhead : configurationKept s (headOffline x p s) := .ofBlocks (headOffline_frame x p s) (hgeo := fun _ => by
      rw [headOffline_geo]
      exact ⟨rfl, rfl, rfl⟩)
    split
    · exact hhead.trans (raiseHalt_settings _ _ _).configuration
    · exact hhead

/-- The handling of a request alone moves the job. -/
theorem serve_job (tag : Byte) (r : Request) (s : State) : (serve tag r s).job = (handle r s).1.job := by
  rw [serve, show (afterReply _ _ _).job = _ from afterReply_effects_frame _ _ _ .job (by simp), placeReply_job]

/-- R15: a request that leaves the job in a job changes no configuration. -/
theorem serve_configuration (tag : Byte) (r : Request) {s : State} (hj : s.job.state ≠ .idle)
    (ht : (serve tag r s).job.state ≠ .idle) : configurationKept s (serve tag r s) := by
  refine configurationKept.trans ?_ (serve_settings tag r s).configuration
  by_cases hconf : isConfiguration r = true
  · rw [handle_configuration hconf hj]
    exact .refl s
  · by_cases hrestart : r = .restart
    · subst hrestart
      rw [serve_job, show handle .restart = ownRestart from rfl] at ht
      exact absurd (ownRestart_vacant s).idle ht
    · exact (handle_settings s (Bool.not_eq_true _ ▸ hconf) hrestart).configuration

/-- R15: no step that begins and ends in a job changes the configuration. -/
theorem step_keeps_configuration {s t : State} (hj : s.job.state ≠ .idle) (ht : t.job.state ≠ .idle) (h : step s = .next t) :
    configurationKept s t := by
  obtain ⟨u, hpending, hkind⟩ := step_kind h
  have hu : configurationKept s u := .ofBlocks hpending
  refine hu.trans ?_
  have hju : u.job.state ≠ .idle := (hpending .job (by simp) : u.job = s.job) ▸ hj
  cases hkind with
  | plain hset _ => exact hset.configuration
  | toIdle _ hidle => exact absurd hidle ht
  | switched p _ hfeed => exact (completeSwitch_settings p u).configuration.trans (.ofBlocks hfeed)
  | offline x _ hfeed => exact (portOffline_configuration x u).trans (.ofBlocks hfeed)
  | served v tag r hv hfeed =>
    have hjv : v.job.state ≠ .idle := (hv .job (by simp) : v.job = u.job) ▸ hju
    have hts : (serve tag r v).job.state ≠ .idle := (hfeed .job (by simp) : t.job = (serve tag r v).job) ▸ ht
    exact (configurationKept.ofBlocks hv).trans ((serve_configuration tag r hjv hts).trans (.ofBlocks hfeed))
  | reset _ _ hjob =>
    rw [hjob] at ht
    exact absurd rfl ht

end Sys2Proof.Machine
end

section
/-! # Owners of the serials a row can still ask for (R10, R21, R24 to R26)

The owner of a column follows from the records and from which nozzles of the plane's heads are OUT for the serial; `SameOwners` is
those two facts. A staged switch and a head going OFFLINE take effect above the frontier, and a switch completes when every serial
below its own is retired. -/

namespace Sys2Proof.Machine

structure SameOwners (p : Plane) (serial : Nat) (s t : State) : Prop where
  planes : t.geo.planes = s.geo.planes
  heads : t.geo.heads = s.geo.heads
  seams : t.geo.seams = s.geo.seams
  out : ∀ (h : Port) (k : RowIx) (n : Fin 768), s.planeOf h = some p → t.outFor p serial h k.val n.val = s.outFor p serial h k.val n.val

section

variable {p : Plane} {serial : Nat} {s u t : State}

theorem SameOwners.refl (s : State) : SameOwners p serial s s := ⟨rfl, rfl, rfl, fun _ _ _ _ => rfl⟩

theorem SameOwners.trans (h : SameOwners p serial s u) (h' : SameOwners p serial u t) : SameOwners p serial s t :=
  ⟨h'.planes.trans h.planes, h'.heads.trans h.heads, h'.seams.trans h.seams, fun x k n hx =>
    (h'.out x k n ((planeOf_of_records h.planes h.heads x).trans hx)).trans (h.out x k n hx)⟩

/-! ### From the nozzles to the owner -/

/-- The covering nozzle of a column in a head's span is a nozzle of the head (R5). -/
theorem coveringNozzle_lt (hrec : recordsOk s) {c : Nat} {h : Port} (hh : h ∈ s.geo.covering p c) :
    ((s.geo.heads.get h).coveringNozzle c).1 < 4 ∧ ((s.geo.heads.get h).coveringNozzle c).2 < 768 := by
  obtain ⟨-, hheads, -⟩ := hrec
  obtain ⟨-, hrows, hrows4, hnozzles, hnozzles768, -⟩ := hheads h
  obtain ⟨-, -, hfirst, hlast⟩ := mem_covering_iff.mp hh
  unfold lastColumn at hlast
  have hpos : 0 < (s.geo.heads.get h).rows * (s.geo.heads.get h).nozzles := Nat.mul_pos (by omega) (by omega)
  have hrow : (c - (s.geo.heads.get h).first) % (s.geo.heads.get h).rows < (s.geo.heads.get h).rows := Nat.mod_lt _ (by omega)
  have hnozzle : (c - (s.geo.heads.get h).first) / (s.geo.heads.get h).rows < (s.geo.heads.get h).nozzles :=
    Nat.div_lt_of_lt_mul (by omega)
  exact ⟨hrow.trans_le hrows4, hnozzle.trans_le hnozzles768⟩

theorem covering_planeOf {c : Nat} {h : Port} (hh : h ∈ s.geo.covering p c) : s.planeOf h = some p :=
  planeOf_eq_some.mpr (mem_headsOn.mp (List.mem_filter.mp hh).1)

theorem SameOwners.coverOut (hsame : SameOwners p serial s t) (hrec : recordsOk s) {c : Nat} {h : Port}
    (hh : h ∈ s.geo.covering p c) : t.coverOut p serial c h = s.coverOut p serial c h := by
  obtain ⟨hrow, hnozzle⟩ := coveringNozzle_lt hrec hh
  simp only [State.coverOut, hsame.heads]
  exact hsame.out h ⟨_, hrow⟩ ⟨_, hnozzle⟩ (covering_planeOf hh)

/-- The two heads a seam entry chooses between are the two it was looked up for (R23, R25). -/
theorem seamOf_chosen_mem {g : Geometry} {a b l : Port} {e : SeamRec} (he : g.seamOf a b = some e) (hl : e.left = some l)
    (c : Nat) : (g.chosen e l serial c).1 ∈ [a, b] ∧ (g.chosen e l serial c).2 ∈ [a, b] := by
  obtain ⟨d, hd, rfl⟩ := Option.map_eq_some_iff.mp he
  have hnamed := List.find?_some hd
  simp only [SeamRec.names, hl, Bool.or_eq_true, Bool.and_eq_true, beq_iff_eq] at hnamed
  unfold Geometry.chosen
  rcases hnamed with ⟨rfl, rfl⟩ | ⟨rfl, rfl⟩ <;> split <;> simp

/-- R21: the same nozzles OUT make the same owner. -/
theorem SameOwners.owner (hsame : SameOwners p serial s t) (hrec : recordsOk s) (c : Nat) : t.owner p serial c = s.owner p serial c := by
  have hcovering : t.geo.covering p c = s.geo.covering p c := by
    have hused : t.geo.inUseOn p = s.geo.inUseOn p := funext fun h => by
      simp only [Geometry.inUseOn, Geometry.configured, hsame.planes, hsame.heads]
    simp only [Geometry.covering, Geometry.headsOn, hused, hsame.heads]
  have hseamOf : ∀ a b, t.geo.seamOf a b = s.geo.seamOf a b := fun a b => by simp only [Geometry.seamOf, hsame.seams]
  have hchosen : ∀ e l, t.geo.chosen e l serial c = s.geo.chosen e l serial c := fun e l => by
    simp only [Geometry.chosen, hsame.heads]
  have hout : ∀ h ∈ s.geo.covering p c, t.coverOut p serial c h = s.coverOut p serial c h := fun h hh => hsame.coverOut hrec hh
  simp only [State.owner, hcovering, hseamOf, hchosen]
  split
  · next h hc => rw [hout h (by simp [hc])]
  · next a b hc =>
    split
    · next e he =>
      split
      · next l hl =>
        obtain ⟨hx, hy⟩ := seamOf_chosen_mem he hl (serial := serial) c
        rw [hout _ (hc ▸ hx), hout _ (hc ▸ hy)]
      · rfl
    · rfl
  · rfl

/-! ### From the Geometry Store to the nozzles -/

/-- In a job the nozzles that are OUT follow from the statuses and the offline-from serials alone (R10, R13). -/
theorem outFor_of_active (hj : s.job.state ≠ .idle) (ht : t.job.state ≠ .idle) {h : Port} {k n : Nat}
    (hstatus : t.geo.statusFor p serial h k n = s.geo.statusFor p serial h k n)
    (hfrom : (∃ f ∈ t.geo.offlineFrom.get h, f ≤ serial) ↔ ∃ f ∈ s.geo.offlineFrom.get h, f ≤ serial) :
    t.outFor p serial h k n = s.outFor p serial h k n := by
  rw [Bool.eq_iff_iff, outFor_iff, outFor_iff, hstatus, hfrom]
  simp [hj, ht]

/-- The Geometry Store as it was. -/
theorem SameOwners.ofGeo (hj : s.job.state ≠ .idle) (ht : t.job.state ≠ .idle) (hgeo : t.geo = s.geo) : SameOwners p serial s t :=
  ⟨by rw [hgeo], by rw [hgeo], by rw [hgeo], fun _ _ _ _ => outFor_of_active hj ht (by rw [hgeo]) (by rw [hgeo])⟩

/-- A nozzle map or a switch changed, where the statuses for the serial are the same. -/
theorem SameOwners.ofStatus (hj : s.job.state ≠ .idle) (ht : t.job.state ≠ .idle) {g : Geometry} (hgeo : t.geo = g)
    (hkept : g = { s.geo with active := g.active, staged := g.staged, switches := g.switches })
    (hstatus : ∀ (h : Port) (k : RowIx) (n : Fin 768), s.planeOf h = some p →
      g.statusFor p serial h k.val n.val = s.geo.statusFor p serial h k.val n.val) : SameOwners p serial s t :=
  ⟨by rw [hgeo, hkept], by rw [hgeo, hkept], by rw [hgeo, hkept], fun h k n hx =>
    outFor_of_active hj ht (by rw [hgeo]; exact hstatus h k n hx) (by rw [hgeo, hkept])⟩

/-- R11, R32: a switch completes with every serial below its own retired; from its own serial on the staged statuses decide already. -/
theorem completeSwitch_owners {q : Plane} (hj : s.job.state ≠ .idle) (hwf : sparseWf .live s.geo.staged = true)
    (hreached : switchReached s q = true) (hserial : (s.rings.get p).retire < serial) : SameOwners p serial s (completeSwitch q s) := by
  refine .ofStatus hj (by rw [completeSwitch, placeNotice_job, State.setGeo_job]; exact hj) (g := s.geo.completeSwitch q)
    (by rw [completeSwitch, placeNotice_geo, State.setGeo_geo]) rfl fun h k n hx => ?_
  obtain ⟨hpending, hat⟩ := switchReached_iff.mp hreached
  have hactive : nozzleStatus (s.geo.completeSwitch q).active h k.val n.val
      = if s.planeOf h = some q then nozzleStatus s.geo.staged h k.val n.val else nozzleStatus s.geo.active h k.val n.val :=
    nozzleStatus_copy q s.geo.active hwf n.isLt
  rw [statusFor_eq, statusFor_eq, completeSwitch_switches, hactive, hx]
  by_cases hq : p = q
  · subst hq
    have hle : (s.geo.switches.get p).serial ≤ serial := by omega
    simp [hpending, hle]
  · simp only [hq, if_false, Option.some.injEq]
    rfl

/-- R9, R10: a switch is staged with its serial above the frontier. -/
theorem IsStaged.owners {q : Plane} {h : Port} {row first : Nat} {bs : List Byte} {g : Geometry} (hg : IsStaged s q h row first bs g)
    (hj : s.job.state ≠ .idle) (hsettled : (s.geo.switches.get q).pending = false)
    (hserial : (serial : Int) ≤ (s.rings.get p).frontier) :
    SameOwners p serial s (s.setGeo g) := by
  have hactive : g.active = s.geo.active := by rw [hg.kept]
  refine .ofStatus (g := g) hj hj rfl (hactive ▸ hg.kept) fun x k n hx => ?_
  rw [statusFor_eq, statusFor_eq, hg.switches, hg.statuses, hactive, hx]
  by_cases hq : p = q
  · subst hq
    have hgt : ¬((s.rings.get p).frontier + 1).toNat ≤ serial := by omega
    simp [hsettled, hgt]
  · simp [hq]

/-- R8: a head that is not in use owns no column. -/
theorem writeActive_owners {h : Port} {row first : Nat} {bs : List Byte} (hj : s.job.state ≠ .idle) (hr : row < 4)
    (hf : first + bs.length ≤ 768) (hout : s.planeOf h = none) : SameOwners p serial s (s.setGeo { s.geo with
      active := sparseWriteRun .live s.geo.active (nozzlePosition h row first) (bs.map statusNamed) }) := by
  refine .ofStatus hj hj (State.setGeo_geo _ _) rfl fun x k n hx => ?_
  have hapart : ¬inRun h row first bs.length x k n.val = true := fun hin => by
    obtain ⟨rfl, -⟩ := of_decide_eq_true hin
    rw [hout] at hx
    cases hx
  rw [statusFor_eq, statusFor_eq]
  dsimp only
  rw [nozzleStatus_writeRun _ _ hr hf n.isLt, if_neg hapart]

/-- R13, R128: a head goes OFFLINE from the serial above the frontier. -/
theorem portOffline_owners {x : Port} (hs : offlineOk s) (hready : (s.ports.get x).state = .ready) (hj : s.job.state ≠ .idle)
    (hserial : (serial : Int) ≤ (s.rings.get p).frontier) : SameOwners p serial s (portOffline x s) := by
  have ht : (portOffline x s).job.state ≠ .idle := fun e => hj ((portOffline_idle_iff x s).mp e)
  have hnone : s.geo.offlineFrom.get x = none := hs x (by rw [hready]; exact nofun)
  rcases hplane : s.planeOf x with _ | q
  · refine .ofGeo hj ht ?_
    rw [portOffline_plain (.inr hplane), setPortState, placeNotice_geo]
    rfl
  · have hgeo : (portOffline x s).geo
        = { s.geo with offlineFrom := s.geo.offlineFrom.put x (some ((s.rings.get q).frontier + 1).toNat) } := by
      rw [portOffline_inJob hj hplane, offlineInJob_eq]
      split
      · rw [show (raiseHalt _ _ _).geo = _ from raiseHalt_frame _ _ _ .geo (by simp), headOffline_geo]
      · exact headOffline_geo x q s
    refine ⟨by rw [hgeo], by rw [hgeo], by rw [hgeo], fun h k n hh => outFor_of_active hj ht (by rw [hgeo]; rfl) ?_⟩
    rw [hgeo]
    dsimp only
    by_cases he : x = h
    · subst he
      obtain rfl : q = p := Option.some.inj (hplane.symm.trans hh)
      have hgt : ¬((s.rings.get q).frontier + 1).toNat ≤ serial := by omega
      simp [hnone, hgt]
    · rw [Table.get_put_ne _ _ he]

end

end Sys2Proof.Machine
end

section
/-! # Every step keeps the rules of a job (R13, R15, R21, R141, R147, R153) -/

namespace Sys2Proof.Machine

/-! ### The owners after a request -/

/-- What Set Nozzles does in a job: it is refused, writes the active map of a head not in use, or stages a switch (R8, R9). -/
theorem ownSetNozzles_cases {port row : Byte} {first count : BitVec 16} {statuses : List Byte} {s : State} (hrec : recordsOk s)
    (hj : s.job.state ≠ .idle) :
    (∃ x, x ≠ Result.done ∧ ownSetNozzles port row first count statuses s = (s, .plain x))
    ∨ ∃ h : Port, port.toNat = h.val ∧ row.toNat < 4 ∧ first.toNat + statuses.length ≤ 768 ∧
      ((s.planeOf h = none ∧ ownSetNozzles port row first count statuses s = (s.setGeo { s.geo with
          active := sparseWriteRun .live s.geo.active (nozzlePosition h row.toNat first.toNat) (statuses.map statusNamed) }, .plain .done))
        ∨ ∃ q, s.planeOf h = some q ∧ (s.geo.switches.get q).pending = false ∧ ownSetNozzles port row first count statuses s
          = (s.setGeo (s.geo.stage q (s.rings.get q).frontier h row.toNat first.toNat (statuses.map statusNamed)), .plain .done)) := by
  by_cases hport : 11 < port.toNat
  · exact .inl ⟨.range, nofun, by rw [ownSetNozzles, nozzleRun_of_noPort hport]⟩
  obtain ⟨h, hh⟩ : ∃ h : Port, port.toNat = h.val := ⟨⟨port.toNat, by omega⟩, rfl⟩
  have own := ownSetNozzles_eq hh row first count statuses s
  by_cases hf : runFits s.geo h row first count
  case neg => exact .inl ⟨.range, nofun, own.trans (if_neg hf)⟩
  rw [if_pos hf] at own
  by_cases hl : statuses.length = count.toNat
  case neg => exact .inl ⟨.length, nofun, own.trans (if_pos hl)⟩
  rw [if_neg (not_not.mpr hl)] at own
  by_cases hb : ∀ b ∈ statuses, b.toNat ≤ 2
  case neg => exact .inl ⟨.range, nofun, own.trans (if_neg hb)⟩
  obtain ⟨hrow, hrun⟩ := row_and_run_bound hrec hf
  rcases hplane : s.planeOf h with _ | q
  · exact .inr ⟨h, hh, hrow, hl ▸ hrun, .inl ⟨hplane, ownSetNozzles_atOnce hh hf hl hb (.inr hplane)⟩⟩
  · have hstaged := ownSetNozzles_inJob hh hf hl hb hj hplane
    cases hpending : (s.geo.switches.get q).pending with
    | true => exact .inl ⟨.pending, nofun, hstaged.trans (if_pos hpending)⟩
    | false => exact .inr ⟨h, hh, hrow, hl ▸ hrun, .inr ⟨q, hplane, hpending, hstaged.trans (if_neg (by simp [hpending]))⟩⟩

theorem effectFollows_configuration {r : Request} (hr : isConfiguration r = true) : effectFollows r = false := by
  cases r <;> simp_all [isConfiguration, effectFollows]

/-- R151: a stop that leaves the job STOPPING leaves the Geometry Store alone. -/
theorem ownStopJob_geo {s : State} (ht : (ownStopJob s).1.job.state ≠ .idle) : (ownStopJob s).1.geo = s.geo := by
  unfold ownStopJob at ht ⊢
  split at ht
  · next hj => rw [if_pos hj]
  · next hj =>
    rw [if_neg hj]
    dsimp only at ht ⊢
    split at ht
    · exact absurd (enterIdle_vacant _ _).idle ht
    · next hlist =>
      rw [if_neg hlist, show (stopComposer _).geo = _ from stopComposer_frame _ .geo (by simp)]
      exact setJobState_frame .stopping .stop s .geo (by simp)

/-- The records and the stores are in the Geometry Store and the frame memory. -/
theorem storesOk_recordsOk_of_frame {bs : List Block} {s t : State} (h : unchangedBut bs s t) (hgeo : .geo ∉ bs) (hmem : .memory ∉ bs)
    (hstores : storesOk s) (hrec : recordsOk s) : storesOk t ∧ recordsOk t := by
  have hg : t.geo = s.geo := h .geo hgeo
  have hm : t.memory = s.memory := h .memory hmem
  simp only [storesOk, recordsOk, hg, hm]
  exact ⟨hstores, hrec⟩

section

variable {p : Plane} {serial : Nat} {s : State} (hstores : storesOk s) (hrec : recordsOk s) (hj : s.job.state ≠ .idle)
include hstores hrec hj

/-- R9 to R11: a switch staged, and completed at once where the retire point has reached it. -/
theorem serve_setNozzles_owners (tag port row : Byte) (first count : BitVec 16) (statuses : List Byte)
    (hdue : (serial : Int) ≤ (s.rings.get p).frontier) (hheld : (s.rings.get p).retire < serial) :
    SameOwners p serial s (serve tag (.setNozzles port row first count statuses) s) := by
  have hserve : ∀ {u x}, ownSetNozzles port row first count statuses s = (u, .plain x) →
      serve tag (.setNozzles port row first count statuses) s
        = afterReply (.setNozzles port row first count statuses) x (placeReply tag 0x06 (.plain x) u) := fun {u x} own => by
    rw [serve, show handle (.setNozzles port row first count statuses) s = (u, .plain x) from own]
    rfl
  have hreply : ∀ g : Geometry, SameOwners p serial (s.setGeo g) (placeReply tag 0x06 (.plain .done) (s.setGeo g)) := fun _ =>
    .ofGeo hj hj (placeReply_geo ..)
  rcases ownSetNozzles_cases hrec hj (port := port) (row := row) (first := first) (count := count) (statuses := statuses) with
    ⟨x, hx, own⟩ | ⟨h, hh, hrow, hrun, ⟨hplane, own⟩ | ⟨q, hplane, hsettled, own⟩⟩
  · rw [hserve own, afterReply_eq_self (.inl hx)]
    exact .ofGeo hj hj (placeReply_geo ..)
  · rw [hserve own]
    refine (writeActive_owners hj hrow hrun hplane).trans ((hreply _).trans ?_)
    change SameOwners p serial _ (completeStaged port .done _)
    rw [completeStaged_atOnce hh .done]
    · exact .refl _
    · exact .inr hplane
  · rw [hserve own]
    have hg := stage_isStaged hplane hstores hrow hrun
    generalize s.geo.stage q (s.rings.get q).frontier h row.toNat first.toNat (statuses.map statusNamed) = g at hg
    refine (hg.owners hj hsettled hdue).trans ((hreply _).trans ?_)
    change SameOwners p serial _ (completeStaged port .done _)
    rw [completeStaged_inJob (s := placeReply tag 0x06 (.plain .done) (s.setGeo g)) (p := q) hh hj ((hg.planeOf h).trans hplane)]
    split
    · next hreached => exact completeSwitch_owners hj hg.canonical hreached hheld
    · exact .refl _

/-- R21: a request handled in a job, that leaves it in a job. -/
theorem serve_owners {tag : Byte} {r : Request} (ht : (serve tag r s).job.state ≠ .idle)
    (hdue : (serial : Int) ≤ (s.rings.get p).frontier) (hheld : ((serve tag r s).rings.get p).retire < serial) :
    SameOwners p serial s (serve tag r s) := by
  by_cases hconf : isConfiguration r = true
  · refine .ofGeo hj ht ?_
    rw [serve, afterReply_eq_self (.inr (effectFollows_configuration hconf)), placeReply_geo, handle_configuration hconf hj]
  by_cases hb : Block.geo ∈ requestBlocks r
  case neg => exact .ofGeo hj ht (serve_frame tag r s .geo hb)
  rw [serve_job] at ht
  cases r
  case setNozzles port row first count statuses =>
    have hrings : (serve tag (.setNozzles port row first count statuses) s).rings = s.rings :=
      serve_frame tag _ s .rings (by simp [requestBlocks])
    exact serve_setNozzles_owners hstores hrec hj tag port row first count statuses hdue (hrings ▸ hheld)
  case stopJob =>
    have hjs := ht
    rw [← serve_job tag] at hjs
    refine .ofGeo hj hjs ?_
    rw [serve, afterReply_eq_self (.inr rfl), placeReply_geo]
    exact ownStopJob_geo ht
  case abort =>
    rw [show handle .abort = ownAbort from rfl] at ht
    exact absurd (ownAbort_vacant s).idle ht
  case restart =>
    rw [show handle .restart = ownRestart from rfl] at ht
    exact absurd (ownRestart_vacant s).idle ht
  case setPlane | setHead | setSeam | setMotion | setTrigger | setMemoryPlan | restoreHead => exact absurd rfl hconf
  all_goals exact absurd hb (by simp [requestBlocks])

end

/-- R21: in a job every step leaves the owner of every column for each serial a row can still ask for. -/
theorem step_keeps_owners {s t : State} (hstores : storesOk s) (hrec : recordsOk s) (hoffline : offlineOk s)
    (hj : s.job.state ≠ .idle) (ht : t.job.state ≠ .idle) (h : step s = .next t) : ownersKept s t := by
  obtain ⟨u, hpending, hkind⟩ := step_kind h
  have hgeo : u.geo = s.geo := hpending .geo (by simp)
  have hjob : u.job = s.job := hpending .job (by simp)
  have hports : u.ports = s.ports := hpending .ports (by simp)
  have hrings : u.rings = s.rings := hpending .rings (by simp)
  have hju : u.job.state ≠ .idle := hjob ▸ hj
  intro p serial c hdue hheld
  have hto : SameOwners p serial s u := .ofGeo hj hju hgeo
  refine (hto.trans (t := t) ?_).owner hrec c
  rw [← hrings] at hdue
  have hlast : ∀ v : State, v.job.state ≠ .idle → unchangedBut [.feed] v t → SameOwners p serial v t := fun v hv hfeed =>
    .ofGeo hv ht (hfeed .geo (by simp))
  obtain ⟨hstores, hrec⟩ := storesOk_recordsOk_of_frame hpending (by simp) (by simp) hstores hrec
  cases hkind with
  | plain _ hsame => exact .ofGeo hju ht hsame
  | toIdle _ hidle => exact absurd hidle ht
  | switched q hreached hfeed =>
    have hretire : t.rings = u.rings := (hfeed .rings (by simp)).trans (completeSwitch_frame q u .rings (by simp))
    have hsame : (completeSwitch q u).job = u.job := completeSwitch_frame q u .job (by simp)
    obtain ⟨-, -, -, hstaged⟩ := hstores
    exact (completeSwitch_owners hju hstaged hreached (hretire ▸ hheld)).trans (hlast _ (by rw [hsame]; exact hju) hfeed)
  | offline x hready hfeed =>
    exact (portOffline_owners (hoffline.ofSettings (.ofFrame hpending)) hready hju hdue).trans
      (hlast _ (fun e => hju ((portOffline_idle_iff x u).mp e)) hfeed)
  | served v tag r hv hfeed =>
    have hjv : v.job.state ≠ .idle := (hv .job (by simp) : v.job = u.job) ▸ hju
    have hvrings : v.rings = u.rings := hv .rings (by simp)
    have hts : (serve tag r v).job.state ≠ .idle := (hfeed .job (by simp) : t.job = (serve tag r v).job) ▸ ht
    have hretire : t.rings = (serve tag r v).rings := hfeed .rings (by simp)
    obtain ⟨hstores, hrec⟩ := storesOk_recordsOk_of_frame hv (by simp) (by simp) hstores hrec
    have htaken : SameOwners p serial u v := .ofGeo hju hjv (hv .geo (by simp))
    exact htaken.trans ((serve_owners hstores hrec hjv hts (hvrings ▸ hdue) (hretire ▸ hheld)).trans (hlast _ hts hfeed))
  | reset _ _ hjob =>
    rw [hjob] at ht
    exact absurd rfl ht

/-- Settles O59: the four rules, each kept by every step. -/
theorem stepKeepsJobRules : Obligations.StepKeepsJobRules :=
  ⟨fun _ _ => step_keeps_idleOk, fun _ _ => step_keeps_configuration, fun _ _ => step_keeps_offlineOk, fun _ _ => step_keeps_owners⟩

end Sys2Proof.Machine
end

section
/-! # Fire windows and keep-wet pulses (R139, R142 to R145) -/

namespace Sys2Proof.Machine

/-! ### The windows of a pulse -/

/-- A window of `w` ticks started at `now` in each row of a list (R145). -/
def startWindows (now w : Nat) (ks : List RowIx) (rows : Table 4 Row) : Table 4 Row :=
  ks.foldl (fun rows k => rows.upd k (fun r => r.startWindow now w)) rows

theorem get_startWindows (now w : Nat) {ks : List RowIx} (hks : ks.Nodup) (rows : Table 4 Row) (j : RowIx) :
    (startWindows now w ks rows).get j = if j ∈ ks then (rows.get j).startWindow now w else rows.get j := by
  induction ks generalizing rows with
  | nil => rfl
  | cons k ks ih =>
    obtain ⟨hk, hks⟩ := List.nodup_cons.mp hks
    rw [startWindows, List.foldl_cons, ← startWindows, ih hks, Table.get_upd]
    by_cases hj : k = j
    · subst hj
      simp [hk]
    · simp [hj, Ne.symm hj]

theorem startWindow_of_quiet {r : Row} (h : r.window = none) (now w : Nat) :
    r.startWindow now w = { r with window := some (now + w) } := by
  rw [Row.startWindow, h]

/-- The timer after its pulse (R145). -/
def KeepWet.pulsed (k : KeepWet) (now : Nat) : KeepWet := match k.mode with | .repeating => k.restart now | .once => k.disarm

theorem KeepWet.pulsed_eq (k : KeepWet) (now : Nat) : k.pulsed now = if k.mode = .repeating then
    { k with start := now, deferred := false, armed := decide (0 < k.interval) } else { k with armed := false, deferred := false } := by
  unfold KeepWet.pulsed
  split
  · next hmode => rw [if_pos hmode, KeepWet.restart]
  · next hmode => rw [if_neg (by rw [hmode]; exact nofun), KeepWet.disarm]

/-- A port after a pulse in the rows of a list (R145). -/
def HeadPort.pulse (q : HeadPort) (now w : Nat) (ks : List RowIx) : HeadPort :=
  { q with rows := startWindows now w ks q.rows, keepWet := q.keepWet.pulsed now }

theorem startWindows_ports (h : Port) (w : Nat) (ks : List RowIx) (s : State) :
    (ks.foldl (fun u k => u.updRow h k (fun r => r.startWindow u.now w)) s).ports
      = s.ports.upd h (fun q => { q with rows := startWindows s.now w ks q.rows }) := by
  induction ks generalizing s with
  | nil => exact (Table.put_get_self _ _).symm
  | cons k ks ih =>
    rw [List.foldl_cons, ih, State.updRow_ports]
    refine Table.ext_get fun g => ?_
    simp only [Table.get_upd]
    split <;> rfl

theorem startWindows_frame (h : Port) (w : Nat) (ks : List RowIx) (s : State) :
    unchangedBut [.ports] s (ks.foldl (fun u k => u.updRow h k (fun r => r.startWindow u.now w)) s) :=
  unchangedBut_foldl (fun u k => updRow_frame u h k _) ks s

/-- What a pulse does: every row of the head enters WINDOW, the timer goes on or rests, and the pulse is counted (R145). -/
theorem keepWetPulse_result (h : Port) (s : State) :
    (keepWetPulse h s).ports = s.ports.upd h (fun q => q.pulse s.now (s.geo.heads.get h).window (s.rowsOf h))
      ∧ (keepWetPulse h s).feed = (bump (.keepWetPulses h) s).feed
      ∧ (keepWetPulse h s).counters = (bump (.keepWetPulses h) s).counters := by
  obtain ⟨u, hu⟩ : ∃ u, u = (s.rowsOf h).foldl
      (fun u k => u.updRow h k (fun r => r.startWindow u.now (s.geo.heads.get h).window)) s := ⟨_, rfl⟩
  have hframe : unchangedBut [.ports] s u := hu ▸ startWindows_frame h _ _ s
  obtain ⟨-, hnow, -⟩ := hframe .outside (by simp)
  have hfeed : u.feed = s.feed := hframe .feed (by simp)
  have hcounters : u.counters = s.counters := hframe .counters (by simp)
  have hpulse : keepWetPulse h s = bump (.keepWetPulses h) (u.updPort h (fun q => { q with keepWet := q.keepWet.pulsed u.now })) := by
    rw [hu]
    rfl
  rw [hpulse]
  refine ⟨?_, bump_feed_congr _ hfeed hcounters, ?_⟩
  · rw [bump_ports, State.updPort_ports, hu, startWindows_ports, ← hu, hnow]
    refine Table.ext_get fun g => ?_
    simp only [Table.get_upd]
    split <;> rfl
  · rw [bump_counters, bump_counters, State.updPort_counters, hcounters]

/-! ### When a pulse may be issued (R144) -/

theorem mem_rowsOf {s : State} {h : Port} {k : RowIx} : k ∈ s.rowsOf h ↔ k.val < (s.geo.heads.get h).rows := by
  simp [State.rowsOf]

theorem rowsOf_nodup (s : State) (h : Port) : (s.rowsOf h).Nodup := (by decide : allRows.Nodup).filter _

/-- Every row of the head QUIET with no due line. -/
abbrev pulseFree (s : State) (h : Port) : Prop :=
  ∀ k : RowIx, k.val < (s.geo.heads.get h).rows → (s.row h k).window = none ∧ (s.row h k).due = none

theorem pulseAllowed_iff {s : State} {h : Port} : s.pulseAllowed h = true ↔ pulseFree s h := by
  simp [State.pulseAllowed, Row.quiet, mem_rowsOf]

/-! ### The events -/

section

variable {h : Port} {s : State}

/-- A pulse issued where it is allowed, with what ends the event (R145). -/
theorem keepWetPulse_pulsed (hfree : pulseFree s h) :
    let t := finish (keepWetPulse h s)
    let wet := (s.ports.get h).keepWet
    unchangedBut [.ports, .counters, .feed] s t ∧ announced [.count (.keepWetPulses h)] s t
      ∧ (∀ g : Port, g ≠ h → t.ports.get g = s.ports.get g)
      ∧ t.ports.get h = { s.ports.get h with
          rows := (t.ports.get h).rows,
          keepWet := if wet.mode = .repeating then { wet with start := s.now, deferred := false, armed := decide (0 < wet.interval) }
            else { wet with armed := false, deferred := false } }
      ∧ ∀ k : RowIx, t.row h k = if k.val < (s.geo.heads.get h).rows then
          { s.row h k with window := some (s.now + (s.geo.heads.get h).window) } else s.row h k := by
  obtain ⟨hports, hfeed, hcounters⟩ := keepWetPulse_result h s
  have hport : ∀ g, (finish (keepWetPulse h s)).ports.get g = if h = g then
      (s.ports.get g).pulse s.now (s.geo.heads.get h).window (s.rowsOf h) else s.ports.get g := fun g => by
    rw [finish_ports, hports, Table.get_upd]
  have hself := (hport h).trans (if_pos rfl)
  refine ⟨unchangedBut_finish (by simp) (keepWetPulse_frame h s), announced_of hfeed hcounters, fun g hg => ?_, ?_, fun k => ?_⟩
  · rw [hport, if_neg (Ne.symm hg)]
  · rw [hself, HeadPort.pulse, KeepWet.pulsed_eq]
  · rw [State.row, hself, HeadPort.pulse, get_startWindows _ _ (rowsOf_nodup s h)]
    by_cases hk : k.val < (s.geo.heads.get h).rows
    · rw [if_pos (mem_rowsOf.mpr hk), if_pos hk]
      exact startWindow_of_quiet (hfree k hk).1 _ _
    · rw [if_neg (mt mem_rowsOf.mp hk), if_neg hk]
      rfl

theorem fireWindowEnd_result {k : RowIx} {e : Nat} (hs : awake s) (hwindow : (s.row h k).window = some e) (he : e ≤ s.now) :
    ∃ t : State, exec (.fireWindowEnd h k) s = .next t ∧ unchangedBut [.ports, .feed] s t ∧ announced [] s t
      ∧ otherRowsKept h k s t ∧ (t.ports.get h).arbiter = (s.ports.get h).arbiter ∧ (t.ports.get h).keepWet = (s.ports.get h).keepWet
      ∧ t.row h k = { s.row h k with window := none } := by
  have hcan : s.windowOver h k = true := by simp [State.windowOver, hwindow, he]
  obtain ⟨u, hu⟩ : ∃ u, u = s.updRow h k (fun r => { r with window := none }) := ⟨_, rfl⟩
  have hexec : exec (.fireWindowEnd h k) s = .next (finish u) :=
    hu ▸ act_of_can (event := fun s => s.updRow h k (fun r => { r with window := none })) hcan hs
  have hrow : ∀ j, (finish u).row h j = if k = j then { s.row h j with window := none } else s.row h j := fun j => by
    rw [State.row, finish_ports, ← State.row, hu, row_updRow]
    simp only [true_and]
  have hport : ∀ g, (finish u).ports.get g = if h = g then
      { s.ports.get g with rows := (s.ports.get g).rows.upd k (fun r => { r with window := none }) } else s.ports.get g := fun g => by
    rw [finish_ports, hu, State.updRow_ports, Table.get_upd]
  have hself := (hport h).trans (if_pos rfl)
  refine ⟨_, hexec, exec_fireWindowEnd_frame hexec, announced_of (signs := []) (by rw [hu]; rfl) (by rw [hu]; rfl),
    ⟨fun g hg => ?_, fun j hj => ?_, ?_, ?_⟩, ?_, ?_, ?_⟩
  · rw [hport, if_neg (Ne.symm hg)]
  · rw [hrow, if_neg (Ne.symm hj)]
  · rw [hself]
  · rw [hself]
  · rw [hself]
  · rw [hself]
  · rw [hrow, if_pos rfl]

/-- R144: an expired timer of a READY port is tested as an event. -/
theorem exec_keepWetExpiry (hs : awake s) (hready : (s.ports.get h).state = .ready) (harmed : (s.ports.get h).keepWet.armed = true)
    (hdeferred : (s.ports.get h).keepWet.deferred = false)
    (hover : (s.ports.get h).keepWet.start + (s.ports.get h).keepWet.interval * 500000 ≤ s.now) :
    exec (.keepWetExpiry h) s = .next (finish (keepWetExpire h s)) := by
  have hcan : s.wetExpired h = true := by
    simp [State.wetExpired, KeepWet.expired, Config.keepWetUnit, hready, harmed, hdeferred, hover]
  exact act_of_can hcan hs

end

/-- Settles O42: the end of a window, an expiry by whether the pulse is allowed, and the pulse that was deferred. -/
theorem windowAndKeepWetResults : Obligations.WindowAndKeepWetResults := by
  intro h s hs
  refine ⟨fun k e hwindow he => fireWindowEnd_result hs hwindow he, fun hready harmed hdeferred hover => ?_,
    fun hready hdeferred hfree => ?_⟩
  · refine ⟨_, exec_keepWetExpiry hs hready harmed hdeferred hover, fun hfree => ?_, fun hbusy => ?_⟩
    · rw [keepWetExpire, if_pos (pulseAllowed_iff.mpr hfree)]
      exact keepWetPulse_pulsed hfree
    · rw [keepWetExpire, if_neg (mt pulseAllowed_iff.mp hbusy)]
      refine ⟨unchangedBut_finish (by simp) ((updPort_frame s h _).mono (by simp)), announced_of (signs := []) rfl rfl, ?_⟩
      rw [finish_ports]
      rfl
  · have hcan : s.wetPulseDue h = true := by
      simp only [State.wetPulseDue, hready, hdeferred, pulseAllowed_iff.mpr hfree, beq_self_eq_true, Bool.and_self]
    exact ⟨_, act_of_can hcan hs, keepWetPulse_pulsed hfree⟩

end Sys2Proof.Machine
end

section
/-! # A fire and its prefetch (R116, R132, R137, R138) -/

namespace Sys2Proof.Machine

open HeadPort.InOrder (laterRow laterRow_of_mem_dropWhile)

/-! ### The port and its rows -/

/-- A port after row `k` has fired at `now`, before the prefetch (R138 steps 1 to 3). -/
def HeadPort.fire (q : HeadPort) (now w : Nat) (k : RowIx) : HeadPort :=
  { q with
    rows := q.rows.upd k (fun r => { r.emptied.startWindow now w with latched := r.data })
    keepWet := if (q.rows.get k).inked = true then q.keepWet.restart now else q.keepWet }

/-- A port after row `k` has taken a line at `now` and joined the arbiter queue (R132, R135). -/
def HeadPort.queueLine (q : HeadPort) (now : Nat) (k : RowIx) (l : PendingLine) : HeadPort :=
  { q with
    rows := q.rows.upd k (fun r => { r with load := .queued, line := some l, due := none, joined := now })
    arbiter := joinQueue q.rows now k q.arbiter }

theorem get_fire_rows (q : HeadPort) (now w : Nat) (k j : RowIx) : (q.fire now w k).rows.get j
    = if k = j then { (q.rows.get j).emptied.startWindow now w with latched := (q.rows.get j).data } else q.rows.get j :=
  Table.get_upd _ _ _ _

theorem get_queueLine_rows (q : HeadPort) (now : Nat) (k j : RowIx) (l : PendingLine) : (q.queueLine now k l).rows.get j
    = if k = j then { q.rows.get j with load := .queued, line := some l, due := none, joined := now } else q.rows.get j :=
  Table.get_upd _ _ _ _

/-- The place of a row in the queue follows from when the rows joined it (R132). -/
theorem joinQueue_congr {rows rows' : Table 4 Row} (h : ∀ j, (rows.get j).joined = (rows'.get j).joined) (now : Nat) (k : RowIx)
    (queue : List RowIx) : joinQueue rows now k queue = joinQueue rows' now k queue := by
  simp only [joinQueue, h]

/-- R132: over a queue in order, the row joins behind the others but for the later rows of its instant. -/
theorem joinQueue_eq_filter {now : Nat} {q : HeadPort} (hq : q.InOrder now) (k : RowIx) : joinQueue q.rows now k q.arbiter
    = q.arbiter.filter (fun j => !laterRow q.rows now k j) ++ k :: q.arbiter.filter (laterRow q.rows now k) := by
  obtain ⟨front, hfront⟩ : ∃ front, front = q.arbiter.takeWhile (fun j => !laterRow q.rows now k j) := ⟨_, rfl⟩
  obtain ⟨back, hback⟩ : ∃ back, back = q.arbiter.dropWhile (fun j => !laterRow q.rows now k j) := ⟨_, rfl⟩
  have hsplit : q.arbiter = front ++ back := by rw [hfront, hback, List.takeWhile_append_dropWhile]
  have hjoin : joinQueue q.rows now k q.arbiter = front ++ k :: back := by rw [hfront, hback]; rfl
  have hearlier : ∀ j ∈ front, laterRow q.rows now k j = false := fun j hj =>
    (Bool.not_eq_true' _).mp (List.mem_takeWhile_imp (p := fun j => !laterRow q.rows now k j) (hfront ▸ hj))
  have hlater : ∀ j ∈ back, laterRow q.rows now k j = true := fun j hj =>
    laterRow_of_mem_dropWhile hq.sorted hq.joined (hback ▸ hj)
  have hkept : q.arbiter.filter (fun j => !laterRow q.rows now k j) = front := by
    rw [hsplit, List.filter_append, List.filter_eq_self.mpr fun j hj => by rw [hearlier j hj]; rfl,
      List.filter_eq_nil_iff.mpr fun j hj => by simp [hlater j hj], List.append_nil]
  have hmoved : q.arbiter.filter (laterRow q.rows now k) = back := by
    rw [hsplit, List.filter_append, List.filter_eq_nil_iff.mpr fun j hj => by simp [hearlier j hj],
      List.filter_eq_self.mpr hlater, List.nil_append]
  rw [hjoin, hkept, hmoved]

/-- A port after row `k` has fired and taken the line it finds ahead, if any (R138). -/
def HeadPort.fireAndPrefetch (q : HeadPort) (now w : Nat) (k : RowIx) (ahead : Option PendingLine) : HeadPort :=
  ahead.elim (q.fire now w k) (fun l => (q.fire now w k).queueLine now k l)

section

variable (q : HeadPort) (now w : Nat) (k : RowIx) (ahead : Option PendingLine)

theorem fireAndPrefetch_state : (q.fireAndPrefetch now w k ahead).state = q.state := by cases ahead <;> rfl

theorem fireAndPrefetch_faultCount : (q.fireAndPrefetch now w k ahead).faultCount = q.faultCount := by cases ahead <;> rfl

theorem fireAndPrefetch_keepWet : (q.fireAndPrefetch now w k ahead).keepWet
    = if (q.rows.get k).inked = true then q.keepWet.restart now else q.keepWet := by
  cases ahead <;> rfl

theorem get_fireAndPrefetch_rows_other {j : RowIx} (hj : j ≠ k) :
    (q.fireAndPrefetch now w k ahead).rows.get j = q.rows.get j := by
  have hfire : (q.fire now w k).rows.get j = q.rows.get j := (get_fire_rows q now w k j).trans (if_neg (Ne.symm hj))
  cases ahead with
  | none => exact hfire
  | some l => exact (get_queueLine_rows _ now k j l).trans ((if_neg (Ne.symm hj)).trans hfire)

theorem get_fireAndPrefetch_rows_self (hquiet : (q.rows.get k).window = none) :
    (q.fireAndPrefetch now w k ahead).rows.get k = { q.rows.get k with
      load := if ahead.isSome then .queued else .empty, line := ahead, due := none, window := some (now + w),
      latched := (q.rows.get k).data, joined := if ahead.isSome then now else (q.rows.get k).joined } := by
  have hfire := (get_fire_rows q now w k k).trans (if_pos rfl)
  rw [startWindow_of_quiet (r := (q.rows.get k).emptied) hquiet] at hfire
  cases ahead with
  | none => exact hfire
  | some l =>
    refine (get_queueLine_rows _ now k k l).trans ((if_pos rfl).trans ?_)
    rw [hfire]
    rfl

/-- R132: a row that takes a line joins the queue behind all but the later rows of its instant. -/
theorem fireAndPrefetch_arbiter_some (l : PendingLine) (hq : q.InOrder now) : (q.fireAndPrefetch now w k (some l)).arbiter
    = q.arbiter.filter (fun j => !laterRow q.rows now k j) ++ k :: q.arbiter.filter (laterRow q.rows now k) := by
  refine (joinQueue_congr (fun j => ?_) now k q.arbiter).trans (joinQueue_eq_filter hq k)
  rw [get_fire_rows]
  split <;> rfl

end

/-! ### The fire -/

/-- The line due at H + 1 that the row finds in its plane's ring (R116, R138 step 4). -/
def State.lineAhead (s : State) (h : Port) (k : RowIx) : Option PendingLine :=
  (s.planeOf h).bind fun p => (dueAt s.place.list (s.motion.h + 1 - (s.geo.heads.get h).d.get k)).bind fun serial =>
    ((s.rings.get p).lookup serial).map fun position => ⟨serial, position⟩

theorem prefetch_eq (h : Port) (k : RowIx) (s : State) :
    prefetch h k s = (s.lineAhead h k).elim s (fun l => queueLoad h k l none s) := by
  unfold prefetch State.lineAhead
  cases s.planeOf h with
  | none => rfl
  | some p =>
    cases dueAt s.place.list (s.motion.h + 1 - (s.geo.heads.get h).d.get k) with
    | none => rfl
    | some serial => cases hpos : (s.rings.get p).lookup serial with
      | none => simp only [hpos, Option.bind_some, Option.map_none, Option.elim]
      | some position => simp only [hpos, Option.bind_some, Option.map_some, Option.elim]

theorem lineAhead_of_frame {s t : State} (hframe : unchangedBut [.ports, .counters, .feed] s t) (h : Port) (k : RowIx) :
    t.lineAhead h k = s.lineAhead h k := by
  have hgeo : t.geo = s.geo := hframe .geo (by simp)
  have hplane : t.planeOf h = s.planeOf h := planeOf_of_records (by rw [hgeo]) (by rw [hgeo]) h
  rw [State.lineAhead, State.lineAhead, hplane, hgeo, show t.place = s.place from hframe .place (by simp),
    show t.motion = s.motion from hframe .motion (by simp), show t.rings = s.rings from hframe .rings (by simp)]

section

variable (h : Port) (k : RowIx) (s : State)

theorem fireLine_ports : (fireLine h k s).ports = s.ports.upd h (fun q => q.fire s.now (s.geo.heads.get h).window k) := by
  refine Table.ext_get fun g => ?_
  rw [Table.get_upd]
  unfold fireLine HeadPort.fire
  dsimp only
  by_cases hinked : (s.row h k).inked = true
  · rw [if_pos hinked, bump_ports, State.updPort_ports, Table.get_upd, State.updRow_ports, Table.get_upd]
    split
    · next hg =>
      subst hg
      rw [if_pos (show ((s.ports.get h).rows.get k).inked = true from hinked)]
      rfl
    · rfl
  · rw [if_neg hinked, State.updRow_ports, Table.get_upd]
    split
    · next hg =>
      subst hg
      rw [if_neg (show ¬ ((s.ports.get h).rows.get k).inked = true from hinked)]
    · rfl

theorem fireLine_tells : tells (if (s.row h k).inked = true then [.count (.dropFires h)] else []) s (fireLine h k s) := by
  unfold fireLine
  dsimp only
  split
  · exact ⟨bump_feed_congr _ rfl rfl, by rw [bump_counters]; exact (bump_counters _ s).symm⟩
  · exact ⟨rfl, rfl⟩

/-- The row fired, with a late fire counted (R137, R138 steps 1 to 3). -/
def firedLate (due : Nat) : State := if due < s.now then bump (.lateFires h) (fireLine h k s) else fireLine h k s

theorem firedLate_ports (due : Nat) :
    (firedLate h k s due).ports = s.ports.upd h (fun q => q.fire s.now (s.geo.heads.get h).window k) := by
  unfold firedLate
  split
  · rw [bump_ports, fireLine_ports]
  · exact fireLine_ports h k s

theorem firedLate_frame (due : Nat) : unchangedBut [.ports, .counters, .feed] s (firedLate h k s due) :=
  unchangedBut_ite ((fireLine_frame h k s).andThen (bump_frame _ _) (by simp) (by simp)) (fireLine_frame h k s)

theorem firedLate_tells (due : Nat) : tells ((if (s.row h k).inked = true then [.count (.dropFires h)] else [])
    ++ (if due < s.now then [.count (.lateFires h)] else [])) s (firedLate h k s due) := by
  refine (fireLine_tells h k s).trans ?_
  unfold firedLate
  split
  · exact ⟨rfl, rfl⟩
  · exact ⟨rfl, rfl⟩

variable {h k s}

theorem fireNow_eq {due : Nat} (hdue : (s.row h k).due = some due) : fireNow h k s
    = (s.lineAhead h k).elim (firedLate h k s due) (fun l => queueLoad h k l none (firedLate h k s due)) := by
  rw [← lineAhead_of_frame (firedLate_frame h k s due), ← prefetch_eq]
  simp only [fireNow, hdue, firedLate, decide_eq_true_eq]

/-- What the fire and its prefetch leave of the port. -/
theorem fireNow_ports {due : Nat} (hdue : (s.row h k).due = some due) : (fireNow h k s).ports = s.ports.upd h (fun q =>
    q.fireAndPrefetch s.now (s.geo.heads.get h).window k (s.lineAhead h k)) := by
  obtain ⟨-, hnow, -⟩ := firedLate_frame h k s due .outside (by simp)
  rw [fireNow_eq hdue]
  cases s.lineAhead h k with
  | none => exact firedLate_ports h k s due
  | some l =>
    dsimp only [Option.elim]
    rw [queueLoad, State.updPort_ports, firedLate_ports, hnow]
    refine Table.ext_get fun g => ?_
    simp only [Table.get_upd]
    split <;> rfl

theorem fireNow_tells {due : Nat} (hdue : (s.row h k).due = some due) : tells
    ((if (s.row h k).inked = true then [.count (.dropFires h)] else [])
      ++ (if due < s.now then [.count (.lateFires h)] else [])) s (fireNow h k s) := by
  have hfired := firedLate_tells h k s due
  rw [fireNow_eq hdue]
  cases s.lineAhead h k with
  | none => exact hfired
  | some l => exact hfired

end

/-- R137: a row that can fire does. -/
theorem exec_fire {h : Port} {k : RowIx} {s : State} {due : Nat} (hs : awake s)
    (hjob : s.job.state = .running ∨ s.job.state = .stopping) (hload : (s.row h k).load = .loaded)
    (hquiet : (s.row h k).window = none) (hdue : (s.row h k).due = some due) (hat : due ≤ s.now) :
    exec (.fire h k) s = .next (finish (fireNow h k s)) := by
  have hcan : s.canFire h k = true := by
    simp [State.canFire, Row.quiet, hload, hquiet, hdue, hat, hjob]
  exact act_of_can hcan hs

/-- Settles O41: the event is taken, and its port is the one that fired the row and took the line ahead. -/
theorem fireResult : Obligations.FireResult := by
  intro s h k due hs hjob hload hquiet hdue hat
  have hexec := exec_fire hs hjob hload hquiet hdue hat
  have hport : ∀ g, (finish (fireNow h k s)).ports.get g = if h = g then
      (s.ports.get g).fireAndPrefetch s.now (s.geo.heads.get h).window k (s.lineAhead h k) else s.ports.get g := fun g => by
    rw [finish_ports, fireNow_ports hdue, Table.get_upd]
  have hself := (hport h).trans (if_pos rfl)
  obtain ⟨hfeed, hcounters⟩ := fireNow_tells hdue
  refine ⟨finish (fireNow h k s), hexec, exec_fire_frame hexec, ⟨fun g hg => ?_, fun j hj => ?_, ?_, ?_⟩,
    announced_of hfeed hcounters, ?_, fun hnone => ?_, fun hsome hrows => ?_, ?_⟩
  · rw [hport, if_neg (Ne.symm hg)]
  · rw [State.row, hself, get_fireAndPrefetch_rows_other _ _ _ _ _ hj, State.row]
  · rw [hself, fireAndPrefetch_state]
  · rw [hself, fireAndPrefetch_faultCount]
  · rw [State.row, hself, get_fireAndPrefetch_rows_self _ _ _ _ _ hquiet]
    rfl
  · have hahead : s.lineAhead h k = none := hnone
    rw [hself, hahead]
    rfl
  · obtain ⟨l, hl⟩ := Option.ne_none_iff_exists'.mp (show s.lineAhead h k ≠ none from hsome)
    rw [hself, hl, fireAndPrefetch_arbiter_some _ _ _ _ _ (rowsOk_iff.mp hrows h)]
    rfl
  · rw [hself, fireAndPrefetch_keepWet]
    rfl

end Sys2Proof.Machine
end
